-- ==== Sys2Proof/Word.lean ====
section
/-! DEFINITION. The word types of HCE: every value is an unsigned number of a stated width
(spec/00_scope.md R10, R11). Byte-sequence helpers are in Machine/Ops.lean. -/

namespace Sys2Proof

/-- A byte, the spec's `u8` (R10). -/
abbrev Byte := BitVec 8

/-- The 32-bit word of MD4, MD5, SHA-1, SHA-256, RIPEMD-160 and of the host bus (R10, R62). -/
abbrev Word32 := BitVec 32

/-- The 64-bit word of SHA-512 and BLAKE2b, and the width of a state register (R10, R21). -/
abbrev Word64 := BitVec 64

/-- The 128-bit counter word of `T` (R23). -/
abbrev Word128 := BitVec 128

/-- A byte buffer of `n` bytes (R24 to R28). -/
abbrev Buffer (n : Nat) := Vector Byte n

/-- The state register file `H[0..7]`, eight 64-bit registers (R21). -/
abbrev RegFile := Vector Word64 8

end Sys2Proof
end

