-- ==== Sys2Proof/Syntax.lean ====
section
/-! DEFINITION. The command set of HCE: the seven algorithm names and one constructor per row of
spec/opcode_table.json, in the table's order (spec/30_encoding.md R92, R94, R100). -/

namespace Sys2Proof

/-- The seven algorithms, in the order of their codes 0 to 6 (R92). -/
inductive Alg where
  | md4 | md5 | sha1 | sha256 | sha512 | ripemd160 | blake2b
deriving DecidableEq, Repr

/-- The 45 commands (R100). The operand `n` of PAD and FINAL is the count of tail bytes, `c[15:8]`
(R95), here any number: `WellFormed` bounds it (assumption 21). -/
inductive Instr where
  /-- `NOP` (R363). -/
  | nop
  /-- `INIT.MD4` (R160). -/
  | initMd4
  /-- `INIT.MD5` (R163). -/
  | initMd5
  /-- `INIT.SHA1` (R220). -/
  | initSha1
  /-- `INIT.SHA256` (R223). -/
  | initSha256
  /-- `INIT.SHA512` (R226). -/
  | initSha512
  /-- `INIT.RIPEMD160` (R271). -/
  | initRipemd160
  /-- `INIT.BLAKE2B` (R300). -/
  | initBlake2b
  /-- `COMPRESS.MD4` (R161). -/
  | compressMd4
  /-- `COMPRESS.MD5` (R164). -/
  | compressMd5
  /-- `COMPRESS.SHA1` (R221). -/
  | compressSha1
  /-- `COMPRESS.SHA256` (R224). -/
  | compressSha256
  /-- `COMPRESS.SHA512` (R227). -/
  | compressSha512
  /-- `COMPRESS.RIPEMD160` (R272). -/
  | compressRipemd160
  /-- `COMPRESS.BLAKE2B` (R302). -/
  | compressBlake2b
  /-- `PAD.MD4 n` (R130). -/
  | padMd4 (n : Nat)
  /-- `PAD.MD5 n` (R131). -/
  | padMd5 (n : Nat)
  /-- `PAD.SHA1 n` (R132). -/
  | padSha1 (n : Nat)
  /-- `PAD.SHA256 n` (R133). -/
  | padSha256 (n : Nat)
  /-- `PAD.SHA512 n` (R134). -/
  | padSha512 (n : Nat)
  /-- `PAD.RIPEMD160 n` (R135). -/
  | padRipemd160 (n : Nat)
  /-- `PAD.BLAKE2B n` (R136). -/
  | padBlake2b (n : Nat)
  /-- `FINAL.MD4 n` (R162). -/
  | finalMd4 (n : Nat)
  /-- `FINAL.MD5 n` (R165). -/
  | finalMd5 (n : Nat)
  /-- `FINAL.SHA1 n` (R222). -/
  | finalSha1 (n : Nat)
  /-- `FINAL.SHA256 n` (R225). -/
  | finalSha256 (n : Nat)
  /-- `FINAL.SHA512 n` (R228). -/
  | finalSha512 (n : Nat)
  /-- `FINAL.RIPEMD160 n` (R273). -/
  | finalRipemd160 (n : Nat)
  /-- `FINAL.BLAKE2B n` (R303). -/
  | finalBlake2b (n : Nat)
  /-- `SERIALIZE.MD4` (R334). -/
  | serializeMd4
  /-- `SERIALIZE.MD5` (R335). -/
  | serializeMd5
  /-- `SERIALIZE.SHA1` (R336). -/
  | serializeSha1
  /-- `SERIALIZE.SHA256` (R337). -/
  | serializeSha256
  /-- `SERIALIZE.SHA512` (R338). -/
  | serializeSha512
  /-- `SERIALIZE.RIPEMD160` (R339). -/
  | serializeRipemd160
  /-- `SERIALIZE.BLAKE2B` (R340). -/
  | serializeBlake2b
  /-- `ENCODE` (R341). -/
  | encodeDigest
  /-- `HASH.MD4` (R373). -/
  | hashMd4
  /-- `HASH.MD5` (R374). -/
  | hashMd5
  /-- `HASH.SHA1` (R375). -/
  | hashSha1
  /-- `HASH.SHA256` (R376). -/
  | hashSha256
  /-- `HASH.SHA512` (R377). -/
  | hashSha512
  /-- `HASH.RIPEMD160` (R378). -/
  | hashRipemd160
  /-- `HASH.BLAKE2B` (R379). -/
  | hashBlake2b
  /-- `SRESET` (R362). -/
  | sreset
deriving DecidableEq, Repr

end Sys2Proof
end

