-- ==== Sys2Proof/WellFormed.lean ====
section
/-! DEFINITION. Which instruction terms have an encoding: the byte count of PAD and FINAL is a
number 0..255 (spec/30_encoding.md R95, R101). Whether the count is legal for the algorithm is not
an encoding matter: execution checks it (R96). -/

namespace Sys2Proof

/-- The operand `n` of PAD and FINAL; `none` for the commands without one (R94, "fields used"). -/
def Instr.tailCount : Instr → Option Nat
  | .padMd4 n | .padMd5 n | .padSha1 n | .padSha256 n | .padSha512 n | .padRipemd160 n
  | .padBlake2b n | .finalMd4 n | .finalMd5 n | .finalSha1 n | .finalSha256 n | .finalSha512 n
  | .finalRipemd160 n | .finalBlake2b n => some n
  | .nop | .initMd4 | .initMd5 | .initSha1 | .initSha256 | .initSha512 | .initRipemd160
  | .initBlake2b | .compressMd4 | .compressMd5 | .compressSha1 | .compressSha256 | .compressSha512
  | .compressRipemd160 | .compressBlake2b | .serializeMd4 | .serializeMd5 | .serializeSha1
  | .serializeSha256 | .serializeSha512 | .serializeRipemd160 | .serializeBlake2b | .encodeDigest
  | .hashMd4 | .hashMd5 | .hashSha1 | .hashSha256 | .hashSha512 | .hashRipemd160 | .hashBlake2b
  | .sreset => none

/-- The assembler's check: a spelling with `n > 255` has no encoding (R101). -/
def Instr.wellFormed (i : Instr) : Bool :=
  match i.tailCount with
  | none => true
  | some n => decide (n ≤ 255)

/-- `Instr.wellFormed` as a proposition. -/
abbrev Instr.WellFormed (i : Instr) : Prop := i.wellFormed = true

end Sys2Proof
end

