-- ==== Sys2Proof/Decode.lean ====
section
/-! DEFINITION. The command decoder, total on all 2^32 words and rejecting by name, and the encoder
written from the same tables (spec/30_encoding.md R91 to R101). -/

namespace Sys2Proof

/-- Why a word is illegal: the five conditions of R97, each under its own name. -/
inductive Illegal where
  /-- (i) `c[31:16] != 0`. -/
  | reservedBits
  /-- (ii) OP is 8 to 14. -/
  | reservedOp
  /-- (iii) NOP, ENCODE or SRESET with `c[15:4] != 0`. -/
  | strayOperand
  /-- (iv) ALG >= 7 where an algorithm is needed. -/
  | reservedAlg
  /-- (v) INIT, COMPRESS, SERIALIZE or HASH with `c[15:8] != 0`. -/
  | strayCount
deriving DecidableEq, Repr

/-- The nine operations of the field OP (R94). -/
inductive Op where
  | nop | init | compress | pad | final | serialize | encodeDigest | hash | sreset
deriving DecidableEq, Repr

/-- The operation codes of R94. -/
def Op.code : Op → BitVec 4
  | .nop => 0
  | .init => 1
  | .compress => 2
  | .pad => 3
  | .final => 4
  | .serialize => 5
  | .encodeDigest => 6
  | .hash => 7
  | .sreset => 15

/-- The operation a code stands for; codes 8 to 14 are reserved (R94, R97 (ii)). -/
def opOfCode (c : BitVec 4) : Option Op :=
  [Op.nop, .init, .compress, .pad, .final, .serialize, .encodeDigest, .hash, .sreset].find?
    fun o => o.code == c

/-- The algorithm codes of R92. -/
def Alg.code : Alg → BitVec 4
  | .md4 => 0
  | .md5 => 1
  | .sha1 => 2
  | .sha256 => 3
  | .sha512 => 4
  | .ripemd160 => 5
  | .blake2b => 6

/-- The algorithm a code stands for; codes 7 to 15 are reserved (R92, R97 (iv)). -/
def algOfCode (c : BitVec 4) : Option Alg :=
  [Alg.md4, .md5, .sha1, .sha256, .sha512, .ripemd160, .blake2b].find? fun a => a.code == c

/-- The command INIT.a of algorithm `a` (R100). -/
def initOf (a : Alg) : Instr :=
  match a with
  | .md4 => .initMd4
  | .md5 => .initMd5
  | .sha1 => .initSha1
  | .sha256 => .initSha256
  | .sha512 => .initSha512
  | .ripemd160 => .initRipemd160
  | .blake2b => .initBlake2b

/-- The command COMPRESS.a of algorithm `a` (R100). -/
def compressOf (a : Alg) : Instr :=
  match a with
  | .md4 => .compressMd4
  | .md5 => .compressMd5
  | .sha1 => .compressSha1
  | .sha256 => .compressSha256
  | .sha512 => .compressSha512
  | .ripemd160 => .compressRipemd160
  | .blake2b => .compressBlake2b

/-- The command PAD.a n of algorithm `a` (R100). -/
def padOf (a : Alg) (n : Nat) : Instr :=
  match a with
  | .md4 => .padMd4 n
  | .md5 => .padMd5 n
  | .sha1 => .padSha1 n
  | .sha256 => .padSha256 n
  | .sha512 => .padSha512 n
  | .ripemd160 => .padRipemd160 n
  | .blake2b => .padBlake2b n

/-- The command FINAL.a n of algorithm `a` (R100). -/
def finalOf (a : Alg) (n : Nat) : Instr :=
  match a with
  | .md4 => .finalMd4 n
  | .md5 => .finalMd5 n
  | .sha1 => .finalSha1 n
  | .sha256 => .finalSha256 n
  | .sha512 => .finalSha512 n
  | .ripemd160 => .finalRipemd160 n
  | .blake2b => .finalBlake2b n

/-- The command SERIALIZE.a of algorithm `a` (R100). -/
def serializeOf (a : Alg) : Instr :=
  match a with
  | .md4 => .serializeMd4
  | .md5 => .serializeMd5
  | .sha1 => .serializeSha1
  | .sha256 => .serializeSha256
  | .sha512 => .serializeSha512
  | .ripemd160 => .serializeRipemd160
  | .blake2b => .serializeBlake2b

/-- The command HASH.a of algorithm `a` (R100). -/
def hashOf (a : Alg) : Instr :=
  match a with
  | .md4 => .hashMd4
  | .md5 => .hashMd5
  | .sha1 => .hashSha1
  | .sha256 => .hashSha256
  | .sha512 => .hashSha512
  | .ripemd160 => .hashRipemd160
  | .blake2b => .hashBlake2b

/-- The field OP of a command word (R91). -/
def opField (c : BitVec 32) : BitVec 4 := c.extractLsb' 0 4

/-- The field ALG of a command word (R91). -/
def algField (c : BitVec 32) : BitVec 4 := c.extractLsb' 4 4

/-- The field NB of a command word (R91). -/
def nbField (c : BitVec 32) : BitVec 8 := c.extractLsb' 8 8

/-- The field RSV of a command word (R91). -/
def rsvField (c : BitVec 32) : BitVec 16 := c.extractLsb' 16 16

/-- A command without operands: every bit above OP must be 0 (R97 (iii)). -/
def decodePlain (c : BitVec 32) (i : Instr) : Except Illegal Instr :=
  if algField c ≠ 0 ∨ nbField c ≠ 0 then .error .strayOperand else .ok i

/-- A command with an algorithm and no byte count (R97 (iv), (v)). -/
def decodeAlg (c : BitVec 32) (f : Alg → Instr) : Except Illegal Instr :=
  match algOfCode (algField c) with
  | none => .error .reservedAlg
  | some a => if nbField c ≠ 0 then .error .strayCount else .ok (f a)

/-- A command with an algorithm and a byte count (R97 (iv), R95). -/
def decodeCount (c : BitVec 32) (f : Alg → Nat → Instr) : Except Illegal Instr :=
  match algOfCode (algField c) with
  | none => .error .reservedAlg
  | some a => .ok (f a (nbField c).toNat)

/-- The decoder of R98, total on every 32-bit word. -/
def decode (c : BitVec 32) : Except Illegal Instr :=
  if rsvField c ≠ 0 then .error .reservedBits
  else
    match opOfCode (opField c) with
    | none => .error .reservedOp
    | some .nop => decodePlain c .nop
    | some .encodeDigest => decodePlain c .encodeDigest
    | some .sreset => decodePlain c .sreset
    | some .init => decodeAlg c initOf
    | some .compress => decodeAlg c compressOf
    | some .serialize => decodeAlg c serializeOf
    | some .hash => decodeAlg c hashOf
    | some .pad => decodeCount c padOf
    | some .final => decodeCount c finalOf

/-- The assembler's `enc(op, a, n) = (n << 8) | (a << 4) | op` (R101). -/
def encodeWord (op : Op) (alg : BitVec 4) (n : Nat) : BitVec 32 :=
  (BitVec.ofNat 32 n <<< 8) ||| (alg.setWidth 32 <<< 4) ||| op.code.setWidth 32

/-- The fields of a command: operation, algorithm and byte count (R94, R95). A command without an
algorithm or a count has 0 there (R97 (iii), (v)), and 0 is the code of MD4. -/
def Instr.fields : Instr → Op × Alg × Nat
  | .nop => (.nop, .md4, 0)
  | .initMd4 => (.init, .md4, 0)
  | .initMd5 => (.init, .md5, 0)
  | .initSha1 => (.init, .sha1, 0)
  | .initSha256 => (.init, .sha256, 0)
  | .initSha512 => (.init, .sha512, 0)
  | .initRipemd160 => (.init, .ripemd160, 0)
  | .initBlake2b => (.init, .blake2b, 0)
  | .compressMd4 => (.compress, .md4, 0)
  | .compressMd5 => (.compress, .md5, 0)
  | .compressSha1 => (.compress, .sha1, 0)
  | .compressSha256 => (.compress, .sha256, 0)
  | .compressSha512 => (.compress, .sha512, 0)
  | .compressRipemd160 => (.compress, .ripemd160, 0)
  | .compressBlake2b => (.compress, .blake2b, 0)
  | .padMd4 n => (.pad, .md4, n)
  | .padMd5 n => (.pad, .md5, n)
  | .padSha1 n => (.pad, .sha1, n)
  | .padSha256 n => (.pad, .sha256, n)
  | .padSha512 n => (.pad, .sha512, n)
  | .padRipemd160 n => (.pad, .ripemd160, n)
  | .padBlake2b n => (.pad, .blake2b, n)
  | .finalMd4 n => (.final, .md4, n)
  | .finalMd5 n => (.final, .md5, n)
  | .finalSha1 n => (.final, .sha1, n)
  | .finalSha256 n => (.final, .sha256, n)
  | .finalSha512 n => (.final, .sha512, n)
  | .finalRipemd160 n => (.final, .ripemd160, n)
  | .finalBlake2b n => (.final, .blake2b, n)
  | .serializeMd4 => (.serialize, .md4, 0)
  | .serializeMd5 => (.serialize, .md5, 0)
  | .serializeSha1 => (.serialize, .sha1, 0)
  | .serializeSha256 => (.serialize, .sha256, 0)
  | .serializeSha512 => (.serialize, .sha512, 0)
  | .serializeRipemd160 => (.serialize, .ripemd160, 0)
  | .serializeBlake2b => (.serialize, .blake2b, 0)
  | .encodeDigest => (.encodeDigest, .md4, 0)
  | .hashMd4 => (.hash, .md4, 0)
  | .hashMd5 => (.hash, .md5, 0)
  | .hashSha1 => (.hash, .sha1, 0)
  | .hashSha256 => (.hash, .sha256, 0)
  | .hashSha512 => (.hash, .sha512, 0)
  | .hashRipemd160 => (.hash, .ripemd160, 0)
  | .hashBlake2b => (.hash, .blake2b, 0)
  | .sreset => (.sreset, .md4, 0)

/-- The command word of an instruction (R100, R101). -/
def encode (i : Instr) : BitVec 32 := encodeWord i.fields.1 i.fields.2.1.code i.fields.2.2

/-- One row of spec/opcode_table.json: a word `c` spells the row's command exactly when
`c &&& mask = pattern` (R99). The command is given by its fields. -/
structure OpcodeRow where
  mnemonic : String
  op : Op
  alg : Alg
  pattern : BitVec 32
  mask : BitVec 32
deriving DecidableEq, Repr

/-- The row's test of R99. -/
def OpcodeRow.spells (r : OpcodeRow) (c : BitVec 32) : Bool := c &&& r.mask == r.pattern

/-- The mask of the rows without a byte count (R99). -/
def fullMask : BitVec 32 := 0xFFFFFFFF

/-- The mask of the PAD and FINAL rows, which leaves NB free (R99). -/
def countMask : BitVec 32 := 0xFFFF00FF

/-- Rows of spec/opcode_table.json: NOP, ENCODE and SRESET. -/
def rowsPlain : List OpcodeRow :=
  [⟨"NOP", .nop, .md4, 0x00000000, fullMask⟩,
   ⟨"ENCODE", .encodeDigest, .md4, 0x00000006, fullMask⟩,
   ⟨"SRESET", .sreset, .md4, 0x0000000F, fullMask⟩]

/-- Rows of spec/opcode_table.json: INIT. -/
def rowsInit : List OpcodeRow :=
  [⟨"INIT.MD4", .init, .md4, 0x00000001, fullMask⟩,
   ⟨"INIT.MD5", .init, .md5, 0x00000011, fullMask⟩,
   ⟨"INIT.SHA1", .init, .sha1, 0x00000021, fullMask⟩,
   ⟨"INIT.SHA256", .init, .sha256, 0x00000031, fullMask⟩,
   ⟨"INIT.SHA512", .init, .sha512, 0x00000041, fullMask⟩,
   ⟨"INIT.RIPEMD160", .init, .ripemd160, 0x00000051, fullMask⟩,
   ⟨"INIT.BLAKE2B", .init, .blake2b, 0x00000061, fullMask⟩]

/-- Rows of spec/opcode_table.json: COMPRESS. -/
def rowsCompress : List OpcodeRow :=
  [⟨"COMPRESS.MD4", .compress, .md4, 0x00000002, fullMask⟩,
   ⟨"COMPRESS.MD5", .compress, .md5, 0x00000012, fullMask⟩,
   ⟨"COMPRESS.SHA1", .compress, .sha1, 0x00000022, fullMask⟩,
   ⟨"COMPRESS.SHA256", .compress, .sha256, 0x00000032, fullMask⟩,
   ⟨"COMPRESS.SHA512", .compress, .sha512, 0x00000042, fullMask⟩,
   ⟨"COMPRESS.RIPEMD160", .compress, .ripemd160, 0x00000052, fullMask⟩,
   ⟨"COMPRESS.BLAKE2B", .compress, .blake2b, 0x00000062, fullMask⟩]

/-- Rows of spec/opcode_table.json: PAD. -/
def rowsPad : List OpcodeRow :=
  [⟨"PAD.MD4_n", .pad, .md4, 0x00000003, countMask⟩,
   ⟨"PAD.MD5_n", .pad, .md5, 0x00000013, countMask⟩,
   ⟨"PAD.SHA1_n", .pad, .sha1, 0x00000023, countMask⟩,
   ⟨"PAD.SHA256_n", .pad, .sha256, 0x00000033, countMask⟩,
   ⟨"PAD.SHA512_n", .pad, .sha512, 0x00000043, countMask⟩,
   ⟨"PAD.RIPEMD160_n", .pad, .ripemd160, 0x00000053, countMask⟩,
   ⟨"PAD.BLAKE2B_n", .pad, .blake2b, 0x00000063, countMask⟩]

/-- Rows of spec/opcode_table.json: FINAL. -/
def rowsFinal : List OpcodeRow :=
  [⟨"FINAL.MD4_n", .final, .md4, 0x00000004, countMask⟩,
   ⟨"FINAL.MD5_n", .final, .md5, 0x00000014, countMask⟩,
   ⟨"FINAL.SHA1_n", .final, .sha1, 0x00000024, countMask⟩,
   ⟨"FINAL.SHA256_n", .final, .sha256, 0x00000034, countMask⟩,
   ⟨"FINAL.SHA512_n", .final, .sha512, 0x00000044, countMask⟩,
   ⟨"FINAL.RIPEMD160_n", .final, .ripemd160, 0x00000054, countMask⟩,
   ⟨"FINAL.BLAKE2B_n", .final, .blake2b, 0x00000064, countMask⟩]

/-- Rows of spec/opcode_table.json: SERIALIZE. -/
def rowsSerialize : List OpcodeRow :=
  [⟨"SERIALIZE.MD4", .serialize, .md4, 0x00000005, fullMask⟩,
   ⟨"SERIALIZE.MD5", .serialize, .md5, 0x00000015, fullMask⟩,
   ⟨"SERIALIZE.SHA1", .serialize, .sha1, 0x00000025, fullMask⟩,
   ⟨"SERIALIZE.SHA256", .serialize, .sha256, 0x00000035, fullMask⟩,
   ⟨"SERIALIZE.SHA512", .serialize, .sha512, 0x00000045, fullMask⟩,
   ⟨"SERIALIZE.RIPEMD160", .serialize, .ripemd160, 0x00000055, fullMask⟩,
   ⟨"SERIALIZE.BLAKE2B", .serialize, .blake2b, 0x00000065, fullMask⟩]

/-- Rows of spec/opcode_table.json: HASH. -/
def rowsHash : List OpcodeRow :=
  [⟨"HASH.MD4", .hash, .md4, 0x00000007, fullMask⟩,
   ⟨"HASH.MD5", .hash, .md5, 0x00000017, fullMask⟩,
   ⟨"HASH.SHA1", .hash, .sha1, 0x00000027, fullMask⟩,
   ⟨"HASH.SHA256", .hash, .sha256, 0x00000037, fullMask⟩,
   ⟨"HASH.SHA512", .hash, .sha512, 0x00000047, fullMask⟩,
   ⟨"HASH.RIPEMD160", .hash, .ripemd160, 0x00000057, fullMask⟩,
   ⟨"HASH.BLAKE2B", .hash, .blake2b, 0x00000067, fullMask⟩]

/-- spec/opcode_table.json, 45 rows (R99). -/
def opcodeTable : List OpcodeRow :=
  rowsPlain ++ rowsInit ++ rowsCompress ++ rowsPad ++ rowsFinal ++ rowsSerialize ++ rowsHash

/-- The instruction this decoder reads from the word of an opcode-table row. HCE has no fetch and no
instruction memory: a command is one 32-bit word, and the table's bit 0 is the word's bit 0 (R90,
R91), so the row's bits are the command word. -/
def decodeTableWord (nbits w : Nat) : Option Instr :=
  match decode (BitVec.ofNat 32 (w % 2 ^ nbits)) with
  | .ok i => some i
  | .error _ => none

end Sys2Proof
end

