-- ==== Sys2Proof/Config.lean ====
section
/-! DEFINITION. What an instance fixes (the parameter MSG_CAP) and the values the spec leaves
open: opaque constants with no body, so that nothing can evaluate them or prove a value of them.
The parameter HCE_BASE is not here: every aperture address of the model is an offset from it
(assumption 3). -/

namespace Sys2Proof.Config

/-- The OPEN parameter MSG_CAP, the size in bytes of message memory of the instance that
`State.reset` describes (spec/00_scope.md R9). DESIGN CHOICE (assumption 2): 4096, the value
spec/95_test_vectors.md uses. Only `State.reset` reads it: a state carries its own capacity in the
register MSGCAP, so a statement about every state holds for every capacity. -/
def msgCap : Word64 := 4096

/-- The byte that message memory holds at an address nothing has written since power-on
(spec/10_state.md R43, spec/93_implementation_defined.md U1: "any value: one arbitrary byte per
address, drawn at reset"): a free value, one per power-on (first argument) and address (second).
Assumption 4. -/
opaque freeMsgByte : Nat → Nat → Byte

/-- What the latch PEND holds once no command is pending (spec/93_implementation_defined.md U2:
"any value"): a free value, one per draw. Assumption 5. -/
opaque freePend : Nat → Word32

end Sys2Proof.Config
end

