-- ==== Sys2Proof/Machine/State.lean ====
section
/-! DEFINITION. The state of HCE as plain data (spec/10_state.md R20), the reasons a step can stop,
and the state after power-on reset (R43, spec/70_reset_and_hazards.md R440). -/

namespace Sys2Proof.Machine

/-- STATUS.PHASE (R32, R33). The value 3 never occurs (spec/93_implementation_defined.md U10;
assumption 10). -/
inductive Phase where
  | idle | active | done
deriving DecidableEq, Repr

/-- STATUS.CODE, the result codes of spec/60_exceptions.md R400. Codes 7 to 15 are never written
(assumption 10). -/
inductive Code where
  | ok | errIllegal | errSeq | errDlen | errKlen | errLen | errMlen
deriving DecidableEq, Repr

/-- The stored fields of CFG (R29): bits [31:16] are reserved, read 0 and ignore writes, so they are
no state (assumption 8). -/
structure Cfg where
  /-- CFG[7:0]. -/
  dlen : Byte
  /-- CFG[15:8]. -/
  klen : Byte
deriving DecidableEq, Repr

/-- The stored fields of CTX (R31): bits [31:20] are reserved and read 0 (assumption 8). -/
structure Ctx where
  /-- CTX[19:16], held as the algorithm its code names (assumption 9). -/
  alg : Alg
  /-- CTX[7:0]. -/
  dlen : Byte
  /-- CTX[15:8]. -/
  klen : Byte
deriving DecidableEq, Repr

/-- One access of the host (spec/20_memory.md R62, R65, R66). `offset` counts from HCE_BASE
(assumption 3). -/
inductive HostAccess where
  /-- A read of the aperture, `width` bits wide. -/
  | read (width offset : Nat)
  /-- A write of the aperture, `width` bits wide; only a 32-bit one has a meaning. -/
  | write (width offset : Nat) (value : Word32)
  /-- `HostMsgRead(addr)`. -/
  | msgRead (addr : Nat)
  /-- `HostMsgWrite(addr, b)`. -/
  | msgWrite (addr : Nat) (b : Byte)
deriving DecidableEq, Repr

/-- One entry of the schedule: who moves next (R19, R74, R441; assumption 1). -/
inductive Event where
  /-- The host makes an access. -/
  | access (a : HostAccess)
  /-- The engine takes its turn: its step runs if BUSY = 1. -/
  | engine
  /-- The platform asserts power-on reset. -/
  | powerOn
deriving DecidableEq, Repr

/-- Message memory as the bytes written since power-on, in one canonical form (`Memory.wf`). An
unlisted address holds no written byte. -/
abbrev Memory := List Host.Cell

/-- The faults of HCE: there are none. Every error of a command is a completion with a code in
STATUS (spec/60_exceptions.md R403, R407), and what the spec leaves without a meaning is a host
access that it says a model refuses (assumption 12). -/
inductive Fault where
deriving DecidableEq, Repr

/-- The accesses to which the spec gives no meaning: "A model refuses each of these" (R65, R66,
spec/70_reset_and_hazards.md R452). Each is safe: no claim can be proved of a host that makes it. -/
inductive Refusal where
  /-- A command whose meaning is not modelled yet; no command of this model is. Safe. -/
  | notModelled (mnemonic : String)
  /-- Raised by `hostAccess`: an aperture access that is not 32 bits wide (U3). Safe. -/
  | accessWidth
  /-- Raised by `hostAccess`: an aperture access at an offset that is no multiple of 4 (U4). Safe. -/
  | accessMisaligned
  /-- Raised by `hostAccess`: an aperture access at offset 0x400 or more (R65). Safe. -/
  | outsideAperture
  /-- Raised by `hostAccess`: a message-memory access at MSG_CAP or above (U5). Safe. -/
  | outsideMessageMemory
  /-- Raised by `hostAccess`: any access but a 32-bit read of STATUS while BUSY = 1 (U6). Safe. -/
  | accessWhileBusy
deriving DecidableEq, Repr

/-- The state of one HCE instance: the spec's list R20, then four fields of the model's own. CMD has
no storage: a write of it goes to `pend` and `busy` (R35). -/
structure State where
  /-- `H[0..7]` (R21). -/
  h : RegFile
  /-- The byte counter `T` (R23). -/
  t : Word128
  /-- The block buffer (R24). -/
  blk : Buffer 128
  /-- The BLAKE2b key buffer (R25). -/
  key : Buffer 64
  /-- The preprocessor output (R26). -/
  padbuf : Buffer 256
  /-- The serialized digest (R27). -/
  digest : Buffer 64
  /-- The hexadecimal rendering (R28). -/
  hex : Buffer 128
  /-- CFG (R29). -/
  cfg : Cfg
  /-- MLEN (R30). -/
  mlen : Word64
  /-- CTX (R31). -/
  ctx : Ctx
  /-- STATUS.BUSY (R32). -/
  busy : Bool
  /-- STATUS.PHASE (R33). -/
  phase : Phase
  /-- STATUS.CODE (R34). -/
  code : Code
  /-- STATUS.PADCNT (R26, R32). -/
  padcnt : BitVec 2
  /-- STATUS.DIGLEN (R27, R32). -/
  diglen : BitVec 7
  /-- STATUS.HEXLEN (R28, R32). -/
  hexlen : BitVec 8
  /-- The latch PEND (R36). -/
  pend : Word32
  /-- MSGCAP, fixed for an instance (R37). -/
  msgcap : Word64
  /-- Message memory MSG (R38), the bytes written since power-on. -/
  msg : Memory
  /-- The model's own: how many power-on resets came before, which selects the free contents of MSG
  (assumption 4). -/
  powerOns : Nat
  /-- The model's own: how many free values of PEND have been drawn (assumption 5). -/
  draws : Nat
  /-- The model's own: what the host, the engine and the platform do next (assumption 1). -/
  schedule : List Event
  /-- The model's own: the values the host has read, newest first (assumption 17). -/
  seen : List Word32
deriving DecidableEq, Repr

/-- What a command's meaning answers. -/
abbrev Result := Host.Outcome State Fault Refusal

/-- The state after power-on reset (R43, R440). PEND, which the spec leaves unspecified, and the
model's own fields take the values of assumption 6; MSGCAP takes assumption 2's. -/
def State.reset : State where
  h := Vector.replicate 8 0
  t := 0
  blk := Vector.replicate 128 0
  key := Vector.replicate 64 0
  padbuf := Vector.replicate 256 0
  digest := Vector.replicate 64 0
  hex := Vector.replicate 128 0
  cfg := ⟨0, 0⟩
  mlen := 0
  ctx := ⟨.md4, 0, 0⟩
  busy := false
  phase := .idle
  code := .ok
  padcnt := 0
  diglen := 0
  hexlen := 0
  pend := 0
  msgcap := Config.msgCap
  msg := []
  powerOns := 0
  draws := 0
  schedule := []
  seen := []

end Sys2Proof.Machine
end

