-- ==== Sys2Proof/Machine/Ops.lean ====
section
/-! DEFINITION. The named operations: byte sequences and byte order (spec/00_scope.md R12), fixed
size buffers and the register file, message memory (R14, spec/20_memory.md R66, R67), raising an
error (R15, spec/60_exceptions.md R403, R405) and completing a command (spec/46_control.md R360). -/

namespace Sys2Proof.Machine

/-! ### Byte sequences (R12) -/

/-- `zeros(n)`: n zero bytes. -/
def zeros (n : Nat) : List Byte := List.replicate n 0

/-- `from_le(B)`: the number whose least significant byte is `B[0]`. -/
def fromLe : List Byte → Nat
  | [] => 0
  | b :: bs => b.toNat + 256 * fromLe bs

/-- `from_be(B)`: the number whose most significant byte is `B[0]`. -/
def fromBe (bs : List Byte) : Nat := fromLe bs.reverse

/-- `to_le(v, n)`: the n bytes whose `from_le` is v mod 2^(8n). -/
def toLe (v : Nat) : Nat → List Byte
  | 0 => []
  | n + 1 => BitVec.ofNat 8 v :: toLe (v / 256) n

/-- `to_be(v, n)`: the n bytes whose `from_be` is v mod 2^(8n). -/
def toBe (v n : Nat) : List Byte := (toLe v n).reverse

/-- The first `count` groups of `k` bytes. -/
def groups (k : Nat) : Nat → List Byte → List (List Byte)
  | 0, _ => []
  | count + 1, bs => bs.take k :: groups k count (bs.drop k)

/-- `words_le(B, k)` as words of `w` bits (w = 8k at every use). -/
def wordsLe (w k : Nat) (bs : List Byte) : List (BitVec w) :=
  (groups k (bs.length / k) bs).map fun g => BitVec.ofNat w (fromLe g)

/-- `words_be(B, k)` as words of `w` bits (w = 8k at every use). -/
def wordsBe (w k : Nat) (bs : List Byte) : List (BitVec w) :=
  (groups k (bs.length / k) bs).map fun g => BitVec.ofNat w (fromBe g)

/-- The words of a constant table of the spec, row by row. A row is one number that holds its `k` words of
`w` bits as the spec prints them, the first one most significant. -/
def tableWords (w k : Nat) (rows : List Nat) : List (BitVec w) :=
  rows.flatMap fun row => (List.range k).map fun i => BitVec.ofNat w (row >>> (w * (k - 1 - i)))

/-! ### Buffers and the register file -/

/-- `n` entries: `l`, then zeros (the `l ++ zeros(n - len(l))` of every buffer write). -/
def fill {w : Nat} (n : Nat) (l : List (BitVec w)) : Vector (BitVec w) n :=
  ⟨((l ++ List.replicate n 0).take n).toArray, by simp⟩

/-- The bytes `B[0..n)` of a buffer. -/
def prefixOf {m : Nat} (b : Buffer m) (n : Nat) : List Byte := b.toList.take n

/-- State word `i` of a 32-bit algorithm, `H[i][31:0]` (R21). -/
def lowWord (h : RegFile) (i : Fin 8) : Word32 := (h[i]).setWidth 32

/-- The register file that holds the 32-bit state words `ws`: high halves 0, and 0 in every register
past the last word (R21; assumption 7). -/
def regsOf32 (ws : List Word32) : RegFile := fill 8 (ws.map fun w => w.setWidth 64)

/-- The register file that holds the 64-bit state words `ws` (R21). -/
def regsOf64 (ws : List Word64) : RegFile := fill 8 ws

/-- `BLK[4k+j] <- w[8j+7:8j]` for j = 0..3, and the same for KEY (R62). -/
def setBufferWord {n : Nat} (b : Buffer n) (k : Nat) (w : Word32) : Buffer n :=
  (((b.setIfInBounds (4 * k) (w.extractLsb' 0 8)).setIfInBounds (4 * k + 1)
    (w.extractLsb' 8 8)).setIfInBounds (4 * k + 2) (w.extractLsb' 16 8)).setIfInBounds (4 * k + 3)
    (w.extractLsb' 24 8)

/-- `from_le(B[4k..4k+4))`, the host's view of a buffer (R61, R62). -/
def bufferWord {n : Nat} (b : Buffer n) (k : Nat) : Word32 :=
  BitVec.ofNat 32 (fromLe ((b.toList.drop (4 * k)).take 4))

/-! ### Message memory -/

/-- The byte written at an address, if one was since power-on. -/
def Memory.lookup : Memory → Nat → Option Byte
  | [], _ => none
  | (a, b) :: m, x => if x = a then some b else Memory.lookup m x

/-- Write one byte, keeping the addresses strictly rising. -/
def Memory.write : Memory → Nat → Byte → Memory
  | [], x, v => [(x, v)]
  | (a, b) :: m, x, v =>
    if x < a then (x, v) :: (a, b) :: m
    else if x = a then (a, v) :: m
    else (a, b) :: Memory.write m x v

/-- Every address of `m` is above `lo`, and the addresses rise strictly. -/
def Memory.risesAbove (lo : Nat) : Memory → Bool
  | [] => true
  | (a, _) :: m => decide (lo < a) && Memory.risesAbove a m

/-- The canonical form: addresses strictly rising. An unlisted address holds no written byte, so no
entry can equal what an unlisted address reads as (assumption 4). -/
def Memory.wf : Memory → Bool
  | [] => true
  | (a, _) :: m => Memory.risesAbove a m

/-- `MSG[a]`: the byte last written there, else the free byte it held since power-on (R43, R442). -/
def msgByte (s : State) (a : Nat) : Byte :=
  match Memory.lookup s.msg a with
  | some b => b
  | none => Config.freeMsgByte s.powerOns a

/-- `MemRead(a, n)`: the bytes `MSG[a..a+n)` (R14). -/
def memRead (s : State) (a n : Nat) : List Byte := (List.range n).map fun i => msgByte s (a + i)

/-! ### Errors and completion -/

/-- `raise Err(code)`: CODE and nothing else (R15, R403). It is HCE's only exception entry: nothing is
saved, no mode changes and control goes nowhere (R407). There is no return from it (R408). -/
def raise (c : Code) (s : State) : State := { s with code := c }

/-- A configuration error, ERR_DLEN or ERR_KLEN (R405). -/
def configError (c : Code) (s : State) : State :=
  { raise c s with
    phase := .idle
    digest := fill 64 []
    diglen := 0
    hex := fill 128 []
    hexlen := 0 }

/-- The end of the engine step: `STATUS.BUSY <- 0` (R360). PEND is meaningless from here on (R36, R404):
a free value (assumption 5). -/
def complete (s : State) : State :=
  { s with busy := false, pend := Config.freePend s.draws, draws := s.draws + 1 }

end Sys2Proof.Machine
end

