-- ==== Sys2Proof/Machine/Operands.lean ====
section
/-! DEFINITION. The operands of commands: the per-algorithm parameters (spec/00_scope.md R16,
spec/30_encoding.md R93) and the blocks and tails a command takes from BLK (R95, R96,
spec/10_state.md R24). -/

namespace Sys2Proof.Machine

/-- A word byte order (spec/20_memory.md R68). -/
inductive Endian where
  | le | be
deriving DecidableEq, Repr

/-- `BS(a)`, the block size in bytes (R93). -/
def blockSize : Alg → Nat
  | .md4 | .md5 | .sha1 | .sha256 | .ripemd160 => 64
  | .sha512 | .blake2b => 128

/-- `NW(a)`, the number of state words (R93). -/
def stateWords : Alg → Nat
  | .md4 | .md5 => 4
  | .sha1 | .ripemd160 => 5
  | .sha256 | .sha512 | .blake2b => 8

/-- `WB(a)`, the word size in bytes (R93). -/
def wordBytes : Alg → Nat
  | .md4 | .md5 | .sha1 | .sha256 | .ripemd160 => 4
  | .sha512 | .blake2b => 8

/-- `WE(a)`, the word byte order of blocks, length field and digest (R68, R93). -/
def wordOrder : Alg → Endian
  | .md4 | .md5 | .ripemd160 | .blake2b => .le
  | .sha1 | .sha256 | .sha512 => .be

/-- `LF(a)`, the length-field size in bytes; 0 for BLAKE2b (R93). -/
def lengthField : Alg → Nat
  | .md4 | .md5 | .sha1 | .sha256 | .ripemd160 => 8
  | .sha512 => 16
  | .blake2b => 0

/-- The digest length of a context: `DL(a)`, or `CTX.DLEN` for BLAKE2b (R93). -/
def digestLength (c : Ctx) : Nat :=
  match c.alg with
  | .md4 | .md5 => 16
  | .sha1 | .ripemd160 => 20
  | .sha256 => 32
  | .sha512 => 64
  | .blake2b => c.dlen.toNat

/-- The MD family, the six Merkle–Damgård algorithms (R93). -/
def mdFamily : List Alg := [.md4, .md5, .sha1, .sha256, .sha512, .ripemd160]

/-- The block operand of COMPRESS, `BLK[0..BS(a))` (R24). -/
def blockOperand (s : State) (a : Alg) : List Byte := prefixOf s.blk (blockSize a)

/-- The tail operand of PAD and FINAL, `BLK[0..n)` (R24, R95). -/
def tailOperand (s : State) (n : Nat) : List Byte := prefixOf s.blk n

/-- The tail length is out of range: `n >= BS(a)` in the MD family, `n > 128` for BLAKE2b (R96,
spec/60_exceptions.md R401). -/
def tailTooLong (a : Alg) (n : Nat) : Bool :=
  match a with
  | .blake2b => decide (128 < n)
  | .md4 | .md5 | .sha1 | .sha256 | .sha512 | .ripemd160 => decide (blockSize a ≤ n)

/-- `T + n`, computed mod 2^128 (R23, spec/40_preprocessor.md R128). -/
def advanced (s : State) (n : Nat) : Word128 := s.t + BitVec.ofNat 128 n

end Sys2Proof.Machine
end

