-- ==== Sys2Proof/Machine/Flags.lean ====
section
/-! DEFINITION. The packed registers and the status flags: STATUS (spec/10_state.md R32), CTX (R31),
CFG (R29), and the preconditions commands check on them (spec/46_control.md R361, R380). HCE has no
arithmetic flags (R40). -/

namespace Sys2Proof.Machine

/-- PHASE as its two bits (R32). -/
def Phase.bits : Phase → BitVec 2
  | .idle => 0
  | .active => 1
  | .done => 2

/-- CODE as its four bits (spec/60_exceptions.md R400). -/
def Code.bits : Code → BitVec 4
  | .ok => 0
  | .errIllegal => 1
  | .errSeq => 2
  | .errDlen => 3
  | .errKlen => 4
  | .errLen => 5
  | .errMlen => 6

/-- The word the host reads from STATUS; bits 3, 15:10 and 23 read 0 (R32). -/
def statusWord (s : State) : Word32 :=
  s.hexlen ++ 0#1 ++ s.diglen ++ 0#6 ++ s.padcnt ++ s.code.bits ++ 0#1 ++ s.phase.bits ++
    BitVec.ofBool s.busy

/-- The word the host reads from CFG; bits 31:16 read 0 (R29). -/
def cfgWord (s : State) : Word32 := 0#16 ++ s.cfg.klen ++ s.cfg.dlen

/-- What a host write of `w` to CFG stores; bits 31:16 are ignored (R29). -/
def cfgOfWord (w : Word32) : Cfg := ⟨w.extractLsb' 0 8, w.extractLsb' 8 8⟩

/-- The word the host reads from CTX; bits 31:20 read 0 (R31). -/
def ctxWord (s : State) : Word32 := 0#12 ++ s.ctx.alg.code ++ s.ctx.klen ++ s.ctx.dlen

/-- The precondition of COMPRESS, PAD and FINAL: a context of algorithm `a` is ACTIVE (R380). -/
def activeFor (s : State) (a : Alg) : Bool := s.phase == .active && s.ctx.alg == a

/-- The precondition of SERIALIZE: PHASE is ACTIVE or DONE, and the context is of algorithm `a` (R380). -/
def openFor (s : State) (a : Alg) : Bool := s.phase != .idle && s.ctx.alg == a

/-- The configuration checks of INIT.BLAKE2B and HASH.BLAKE2B, ERR_DLEN before ERR_KLEN (R361,
spec/60_exceptions.md R401): the first that fails. -/
def configFault (s : State) : Option Code :=
  if s.cfg.dlen < 1 ∨ 64 < s.cfg.dlen then some .errDlen
  else if 64 < s.cfg.klen then some .errKlen
  else none

/-- HASH's message length check, `MLEN > MSG_CAP` (R370). -/
def messageTooLong (s : State) : Bool := decide (s.msgcap < s.mlen)

/-- PADCNT for padding `p` of algorithm `a`: `len(p) / BS(a)` (spec/40_preprocessor.md R128). -/
def padCount (a : Alg) (p : List Byte) : BitVec 2 := BitVec.ofNat 2 (p.length / blockSize a)

/-- DIGLEN for the serialized digest `d` (spec/45_digest_encoder.md R333; assumption 11). -/
def digestFlag (d : List Byte) : BitVec 7 := BitVec.ofNat 7 d.length

/-- HEXLEN for the hexadecimal text `x` (R341). -/
def hexFlag (x : List Byte) : BitVec 8 := BitVec.ofNat 8 x.length

end Sys2Proof.Machine
end

