-- ==== Sys2Proof/Machine/Aperture.lean ====
section
/-! DEFINITION. The host's side of HCE: the register aperture (spec/20_memory.md R61 to R65,
spec/10_state.md R35), the host's access to message memory (R66), and which accesses are refused
(R65, spec/70_reset_and_hazards.md R452). -/

namespace Sys2Proof.Machine

/-- The host words of the register map (R61). -/
inductive HostReg where
  | cmd | status | cfg | ctx | mlenLo | mlenHi | msgcapLo | msgcapHi
  | t (k : Nat) | hLo (i : Nat) | hHi (i : Nat)
  | digest (k : Nat) | blk (k : Nat) | key (k : Nat) | padbuf (k : Nat) | hex (k : Nat)
  | reserved
deriving DecidableEq, Repr

/-- The host word at a 4-aligned offset of the aperture (R61). -/
def regAt (offset : Nat) : HostReg :=
  if offset = 0x000 then .cmd
  else if offset = 0x004 then .status
  else if offset = 0x008 then .cfg
  else if offset = 0x00C then .ctx
  else if offset = 0x010 then .mlenLo
  else if offset = 0x014 then .mlenHi
  else if offset = 0x018 then .msgcapLo
  else if offset = 0x01C then .msgcapHi
  else if offset < 0x030 then .t ((offset - 0x020) / 4)
  else if offset < 0x040 then .reserved
  else if offset < 0x080 then
    if (offset - 0x040) % 8 = 0 then .hLo ((offset - 0x040) / 8) else .hHi ((offset - 0x040) / 8)
  else if offset < 0x0C0 then .digest ((offset - 0x080) / 4)
  else if offset < 0x100 then .reserved
  else if offset < 0x180 then .blk ((offset - 0x100) / 4)
  else if offset < 0x1C0 then .key ((offset - 0x180) / 4)
  else if offset < 0x200 then .reserved
  else if offset < 0x300 then .padbuf ((offset - 0x200) / 4)
  else if offset < 0x380 then .hex ((offset - 0x300) / 4)
  else .reserved

/-- What a host read of a register word returns (R61 to R64): CMD and reserved words read 0. -/
def readReg (s : State) : HostReg → Word32
  | .cmd => 0
  | .status => statusWord s
  | .cfg => cfgWord s
  | .ctx => ctxWord s
  | .mlenLo => s.mlen.extractLsb' 0 32
  | .mlenHi => s.mlen.extractLsb' 32 32
  | .msgcapLo => s.msgcap.extractLsb' 0 32
  | .msgcapHi => s.msgcap.extractLsb' 32 32
  | .t k => s.t.extractLsb' (32 * k) 32
  | .hLo i => (s.h.toList.getD i 0).extractLsb' 0 32
  | .hHi i => (s.h.toList.getD i 0).extractLsb' 32 32
  | .digest k => bufferWord s.digest k
  | .blk k => bufferWord s.blk k
  | .key k => bufferWord s.key k
  | .padbuf k => bufferWord s.padbuf k
  | .hex k => bufferWord s.hex k
  | .reserved => 0

/-- A host write of CMD issues the command: `PEND <- c`, `STATUS.BUSY <- 1` (R35). -/
def issue (c : Word32) (s : State) : State := { s with pend := c, busy := true }

/-- What a host write of `w` to a register word does. Read-only and reserved words ignore it (R63, R64). -/
def writeReg (s : State) (w : Word32) : HostReg → State
  | .cmd => issue w s
  | .cfg => { s with cfg := cfgOfWord w }
  | .mlenLo => { s with mlen := s.mlen.extractLsb' 32 32 ++ w }
  | .mlenHi => { s with mlen := w ++ s.mlen.extractLsb' 0 32 }
  | .blk k => { s with blk := setBufferWord s.blk k w }
  | .key k => { s with key := setBufferWord s.key k w }
  | .status | .ctx | .msgcapLo | .msgcapHi | .t _ | .hLo _ | .hHi _ | .digest _ | .padbuf _
  | .hex _ | .reserved => s

/-- The host has read `v` (assumption 17). -/
def returned (v : Word32) (s : State) : State := { s with seen := v :: s.seen }

/-- Why an aperture access has no meaning, if it has none (R65): its width, its alignment, its offset. -/
def apertureRefusal (width offset : Nat) : Option Refusal :=
  if width ≠ 32 then some .accessWidth
  else if offset % 4 ≠ 0 then some .accessMisaligned
  else if 0x400 ≤ offset then some .outsideAperture
  else none

/-- The one access allowed while BUSY = 1: a 32-bit read of STATUS (R452). -/
def isStatusPoll : HostAccess → Bool
  | .read width offset => width == 32 && offset == 0x004
  | .write _ _ _ | .msgRead _ | .msgWrite _ _ => false

/-- What an access does when BUSY does not forbid it. -/
def performAccess (a : HostAccess) (s : State) : Result :=
  match a with
  | .read width offset =>
    match apertureRefusal width offset with
    | some r => .refused r
    | none => .next (returned (readReg s (regAt offset)) s)
  | .write width offset w =>
    match apertureRefusal width offset with
    | some r => .refused r
    | none => .next (writeReg s w (regAt offset))
  | .msgRead addr =>
    if s.msgcap.toNat ≤ addr then .refused .outsideMessageMemory
    else .next (returned ((msgByte s addr).setWidth 32) s)
  | .msgWrite addr b =>
    if s.msgcap.toNat ≤ addr then .refused .outsideMessageMemory
    else .next { s with msg := Memory.write s.msg addr b }

/-- One host access as a transition (R74), refused while BUSY unless it polls STATUS (R65, R452). -/
def hostAccess (a : HostAccess) (s : State) : Result :=
  if s.busy && !isStatusPoll a then .refused .accessWhileBusy else performAccess a s

end Sys2Proof.Machine
end

