-- ==== Sys2Proof/Machine/Sha.lean ====
section
/-! DEFINITION. The SHA-1, SHA-256 and SHA-512 compression functions (spec/42_sha.md R200 to R214). -/

namespace Sys2Proof.Machine

/-! ### SHA-1, on 32-bit words -/

/-- Five working registers a..e: SHA-1's (R204) and one RIPEMD-160 pipeline's
(spec/43_ripemd160.md R268). -/
structure Quint where
  a : Word32
  b : Word32
  c : Word32
  d : Word32
  e : Word32
deriving DecidableEq, Repr

/-- The five state words in H[0..4] (spec/10_state.md R22). -/
def Quint.ofRegs (h : RegFile) : Quint :=
  ⟨lowWord h 0, lowWord h 1, lowWord h 2, lowWord h 3, lowWord h 4⟩

/-- The five words in order. -/
def Quint.words (q : Quint) : List Word32 := [q.a, q.b, q.c, q.d, q.e]

/-- SHA-1's initial state (R201). -/
def sha1Init : List Word32 := [0x67452301, 0xEFCDAB89, 0x98BADCFE, 0x10325476, 0xC3D2E1F0]

/-- SHA-1's function of step `t`: Ch, Parity, Maj, Parity (R202). -/
def sha1Func (t : Nat) (b c d : Word32) : Word32 :=
  if t < 20 then (b &&& c) ||| (~~~b &&& d)
  else if t < 40 then b ^^^ c ^^^ d
  else if t < 60 then (b &&& c) ||| (b &&& d) ||| (c &&& d)
  else b ^^^ c ^^^ d

/-- SHA-1's constant of step `t` (R202). -/
def sha1Const (t : Nat) : Word32 :=
  if t < 20 then 0x5A827999 else if t < 40 then 0x6ED9EBA1 else if t < 60 then 0x8F1BBCDC
  else 0xCA62C1D6

/-- `n` more words of SHA-1's schedule. `ws` is newest first, so `W[t-j]` is its item `j - 1` (R203). -/
def sha1Expand : Nat → List Word32 → List Word32
  | 0, ws => ws
  | n + 1, ws =>
    sha1Expand n
      ((ws.getD 2 0 ^^^ ws.getD 7 0 ^^^ ws.getD 13 0 ^^^ ws.getD 15 0).rotateLeft 1 :: ws)

/-- `W[0..79]` from the 16 block words (R203). -/
def sha1Schedule (x : List Word32) : List Word32 := (sha1Expand 64 x.reverse).reverse

/-- One SHA-1 step, on the step number and its word `W[t]` (R204). -/
def sha1Step (q : Quint) (tw : Nat × Word32) : Quint :=
  ⟨q.a.rotateLeft 5 + sha1Func tw.1 q.b q.c q.d + q.e + sha1Const tw.1 + tw.2, q.a,
    q.b.rotateLeft 30, q.c, q.d⟩

/-- `sha1_compress(S, W)` (R204). -/
def sha1Compress (s : Quint) (x : List Word32) : Quint :=
  let q := ((List.range 80).zip (sha1Schedule x)).foldl sha1Step s
  ⟨s.a + q.a, s.b + q.b, s.c + q.c, s.d + q.d, s.e + q.e⟩

/-! ### SHA-256 and SHA-512: one function at two widths (R214) -/

/-- The eight working registers a..h (R209). -/
structure Oct (w : Nat) where
  a : BitVec w
  b : BitVec w
  c : BitVec w
  d : BitVec w
  e : BitVec w
  f : BitVec w
  g : BitVec w
  h : BitVec w
deriving DecidableEq, Repr

/-- The eight words in order. -/
def Oct.words {w : Nat} (q : Oct w) : List (BitVec w) := [q.a, q.b, q.c, q.d, q.e, q.f, q.g, q.h]

/-- Feed-forward: elementwise addition (R209). -/
def Oct.add {w : Nat} (p q : Oct w) : Oct w :=
  ⟨p.a + q.a, p.b + q.b, p.c + q.c, p.d + q.d, p.e + q.e, p.f + q.f, p.g + q.g, p.h + q.h⟩

/-- SHA-256's state words in H[0..7] (spec/10_state.md R22). -/
def Oct.ofRegs32 (h : RegFile) : Oct 32 :=
  ⟨lowWord h 0, lowWord h 1, lowWord h 2, lowWord h 3, lowWord h 4, lowWord h 5, lowWord h 6,
    lowWord h 7⟩

/-- SHA-512's state words, all 64 bits of H[0..7] (spec/10_state.md R21). -/
def Oct.ofRegs64 (h : RegFile) : Oct 64 := ⟨h[0], h[1], h[2], h[3], h[4], h[5], h[6], h[7]⟩

/-- `Ch(x,y,z)` (R207, R212). -/
def ch {w : Nat} (x y z : BitVec w) : BitVec w := (x &&& y) ^^^ (~~~x &&& z)

/-- `Maj(x,y,z)` (R207, R212). -/
def maj {w : Nat} (x y z : BitVec w) : BitVec w := (x &&& y) ^^^ (x &&& z) ^^^ (y &&& z)

/-- SHA-256's `Σ0` (R207). -/
def bigSigma0_256 (x : Word32) : Word32 := x.rotateRight 2 ^^^ x.rotateRight 13 ^^^ x.rotateRight 22

/-- SHA-256's `Σ1` (R207). -/
def bigSigma1_256 (x : Word32) : Word32 := x.rotateRight 6 ^^^ x.rotateRight 11 ^^^ x.rotateRight 25

/-- SHA-256's `σ0` (R207). -/
def smallSigma0_256 (x : Word32) : Word32 := x.rotateRight 7 ^^^ x.rotateRight 18 ^^^ (x >>> 3)

/-- SHA-256's `σ1` (R207). -/
def smallSigma1_256 (x : Word32) : Word32 := x.rotateRight 17 ^^^ x.rotateRight 19 ^^^ (x >>> 10)

/-- SHA-512's `Σ0` (R212). -/
def bigSigma0_512 (x : Word64) : Word64 := x.rotateRight 28 ^^^ x.rotateRight 34 ^^^ x.rotateRight 39

/-- SHA-512's `Σ1` (R212). -/
def bigSigma1_512 (x : Word64) : Word64 := x.rotateRight 14 ^^^ x.rotateRight 18 ^^^ x.rotateRight 41

/-- SHA-512's `σ0` (R212). -/
def smallSigma0_512 (x : Word64) : Word64 := x.rotateRight 1 ^^^ x.rotateRight 8 ^^^ (x >>> 7)

/-- SHA-512's `σ1` (R212). -/
def smallSigma1_512 (x : Word64) : Word64 := x.rotateRight 19 ^^^ x.rotateRight 61 ^^^ (x >>> 6)

/-- `n` more words of a SHA-2 schedule, `W[t] = σ1(W[t-2]) + W[t-7] + σ0(W[t-15]) + W[t-16]`. `ws` is
newest first, so `W[t-j]` is its item `j - 1` (R208, R213). -/
def sha2Expand {w : Nat} (sigma0 sigma1 : BitVec w → BitVec w) : Nat → List (BitVec w) → List (BitVec w)
  | 0, ws => ws
  | n + 1, ws =>
    sha2Expand sigma0 sigma1 n
      ((sigma1 (ws.getD 1 0) + ws.getD 6 0 + sigma0 (ws.getD 14 0) + ws.getD 15 0) :: ws)

/-- One SHA-2 step, on the constant `K[t]` and the word `W[t]` (R209, R214). -/
def sha2Step {w : Nat} (sum0 sum1 : BitVec w → BitVec w) (q : Oct w) (kw : BitVec w × BitVec w) : Oct w :=
  let t1 := q.h + sum1 q.e + ch q.e q.f q.g + kw.1 + kw.2
  let t2 := sum0 q.a + maj q.a q.b q.c
  ⟨t1 + t2, q.a, q.b, q.c, q.d + t1, q.e, q.f, q.g⟩

/-- SHA-256's initial state (R205). -/
def sha256Init : List Word32 :=
  [0x6a09e667, 0xbb67ae85, 0x3c6ef372, 0xa54ff53a, 0x510e527f, 0x9b05688c, 0x1f83d9ab, 0x5be0cd19]

/-- SHA-256's round constants K, in the rows of R206. -/
def sha256Const : List Word32 := tableWords 32 8
  [0x428a2f98_71374491_b5c0fbcf_e9b5dba5_3956c25b_59f111f1_923f82a4_ab1c5ed5,
   0xd807aa98_12835b01_243185be_550c7dc3_72be5d74_80deb1fe_9bdc06a7_c19bf174,
   0xe49b69c1_efbe4786_0fc19dc6_240ca1cc_2de92c6f_4a7484aa_5cb0a9dc_76f988da,
   0x983e5152_a831c66d_b00327c8_bf597fc7_c6e00bf3_d5a79147_06ca6351_14292967,
   0x27b70a85_2e1b2138_4d2c6dfc_53380d13_650a7354_766a0abb_81c2c92e_92722c85,
   0xa2bfe8a1_a81a664b_c24b8b70_c76c51a3_d192e819_d6990624_f40e3585_106aa070,
   0x19a4c116_1e376c08_2748774c_34b0bcb5_391c0cb3_4ed8aa4a_5b9cca4f_682e6ff3,
   0x748f82ee_78a5636f_84c87814_8cc70208_90befffa_a4506ceb_bef9a3f7_c67178f2]

/-- `W[0..63]` from the 16 block words (R208). -/
def sha256Schedule (x : List Word32) : List Word32 :=
  (sha2Expand smallSigma0_256 smallSigma1_256 48 x.reverse).reverse

/-- `sha256_compress(S, W)` (R209). -/
def sha256Compress (s : Oct 32) (x : List Word32) : Oct 32 :=
  s.add ((sha256Const.zip (sha256Schedule x)).foldl (sha2Step bigSigma0_256 bigSigma1_256) s)

/-- SHA-512's initial state (R210), which is also BLAKE2b's IV (spec/44_blake2b.md R291). -/
def sha512Init : List Word64 :=
  [0x6a09e667f3bcc908, 0xbb67ae8584caa73b, 0x3c6ef372fe94f82b, 0xa54ff53a5f1d36f1,
   0x510e527fade682d1, 0x9b05688c2b3e6c1f, 0x1f83d9abfb41bd6b, 0x5be0cd19137e2179]

/-- SHA-512's round constants K, in the rows of R211. -/
def sha512Const : List Word64 := tableWords 64 4
  [0x428a2f98d728ae22_7137449123ef65cd_b5c0fbcfec4d3b2f_e9b5dba58189dbbc,
   0x3956c25bf348b538_59f111f1b605d019_923f82a4af194f9b_ab1c5ed5da6d8118,
   0xd807aa98a3030242_12835b0145706fbe_243185be4ee4b28c_550c7dc3d5ffb4e2,
   0x72be5d74f27b896f_80deb1fe3b1696b1_9bdc06a725c71235_c19bf174cf692694,
   0xe49b69c19ef14ad2_efbe4786384f25e3_0fc19dc68b8cd5b5_240ca1cc77ac9c65,
   0x2de92c6f592b0275_4a7484aa6ea6e483_5cb0a9dcbd41fbd4_76f988da831153b5,
   0x983e5152ee66dfab_a831c66d2db43210_b00327c898fb213f_bf597fc7beef0ee4,
   0xc6e00bf33da88fc2_d5a79147930aa725_06ca6351e003826f_142929670a0e6e70,
   0x27b70a8546d22ffc_2e1b21385c26c926_4d2c6dfc5ac42aed_53380d139d95b3df,
   0x650a73548baf63de_766a0abb3c77b2a8_81c2c92e47edaee6_92722c851482353b,
   0xa2bfe8a14cf10364_a81a664bbc423001_c24b8b70d0f89791_c76c51a30654be30,
   0xd192e819d6ef5218_d69906245565a910_f40e35855771202a_106aa07032bbd1b8,
   0x19a4c116b8d2d0c8_1e376c085141ab53_2748774cdf8eeb99_34b0bcb5e19b48a8,
   0x391c0cb3c5c95a63_4ed8aa4ae3418acb_5b9cca4f7763e373_682e6ff3d6b2b8a3,
   0x748f82ee5defb2fc_78a5636f43172f60_84c87814a1f0ab72_8cc702081a6439ec,
   0x90befffa23631e28_a4506cebde82bde9_bef9a3f7b2c67915_c67178f2e372532b,
   0xca273eceea26619c_d186b8c721c0c207_eada7dd6cde0eb1e_f57d4f7fee6ed178,
   0x06f067aa72176fba_0a637dc5a2c898a6_113f9804bef90dae_1b710b35131c471b,
   0x28db77f523047d84_32caab7b40c72493_3c9ebe0a15c9bebc_431d67c49c100d4c,
   0x4cc5d4becb3e42b6_597f299cfc657e2a_5fcb6fab3ad6faec_6c44198c4a475817]

/-- `W[0..79]` from the 16 block words (R213). -/
def sha512Schedule (x : List Word64) : List Word64 :=
  (sha2Expand smallSigma0_512 smallSigma1_512 64 x.reverse).reverse

/-- `sha512_compress(S, W)` (R214). -/
def sha512Compress (s : Oct 64) (x : List Word64) : Oct 64 :=
  s.add ((sha512Const.zip (sha512Schedule x)).foldl (sha2Step bigSigma0_512 bigSigma1_512) s)

end Sys2Proof.Machine
end

