-- ==== Sys2Proof/Machine/Blake2b.lean ====
section
/-! DEFINITION. The BLAKE2b compression function (spec/44_blake2b.md R290 to R296). All arithmetic is
on 64-bit words. -/

namespace Sys2Proof.Machine

/-- BLAKE2b's IV words (R291). -/
def blakeIv : List Word64 :=
  [0x6a09e667f3bcc908, 0xbb67ae8584caa73b, 0x3c6ef372fe94f82b, 0xa54ff53a5f1d36f1,
   0x510e527fade682d1, 0x9b05688c2b3e6c1f, 0x1f83d9abfb41bd6b, 0x5be0cd19137e2179]

/-- `b2_init(dl, kl)`: the IV with word 0 xored with the parameter word (R291). -/
def blakeInit (dl kl : Byte) : RegFile :=
  let iv : RegFile := regsOf64 blakeIv
  iv.set 0 (iv[0] ^^^ (0x01010000 ||| (kl.setWidth 64 <<< 8) ||| dl.setWidth 64))

/-- The message-word permutation SIGMA, 10 rows (R292). -/
def blakeSigma : List (List Nat) :=
  [[0, 1, 2, 3, 4, 5, 6, 7, 8, 9, 10, 11, 12, 13, 14, 15],
   [14, 10, 4, 8, 9, 15, 13, 6, 1, 12, 0, 2, 11, 7, 5, 3],
   [11, 8, 12, 0, 5, 2, 15, 13, 10, 14, 3, 6, 7, 1, 9, 4],
   [7, 9, 3, 1, 13, 12, 11, 14, 2, 6, 5, 10, 4, 0, 15, 8],
   [9, 0, 5, 7, 2, 4, 10, 15, 14, 1, 11, 12, 6, 8, 3, 13],
   [2, 12, 6, 10, 0, 11, 8, 3, 4, 13, 7, 5, 15, 14, 1, 9],
   [12, 5, 1, 15, 14, 13, 4, 10, 0, 7, 6, 3, 9, 2, 8, 11],
   [13, 11, 7, 14, 12, 1, 3, 9, 5, 0, 15, 4, 8, 6, 2, 10],
   [6, 15, 14, 9, 11, 3, 0, 8, 12, 2, 13, 7, 1, 4, 10, 5],
   [10, 2, 8, 4, 7, 6, 1, 5, 15, 11, 9, 14, 3, 12, 13, 0]]

/-- The index quadruples of the eight mixes of a round, in order (R294). -/
def blakeQuads : List (Fin 16 × Fin 16 × Fin 16 × Fin 16) :=
  [(0, 4, 8, 12), (1, 5, 9, 13), (2, 6, 10, 14), (3, 7, 11, 15),
   (0, 5, 10, 15), (1, 6, 11, 12), (2, 7, 8, 13), (3, 4, 9, 14)]

/-- The G-mix: each line reads the value the line before wrote (R293). -/
def blakeG (v : Vector Word64 16) (a b c d : Fin 16) (x y : Word64) : Vector Word64 16 :=
  let v := v.set a (v[a] + v[b] + x)
  let v := v.set d ((v[d] ^^^ v[a]).rotateRight 32)
  let v := v.set c (v[c] + v[d])
  let v := v.set b ((v[b] ^^^ v[c]).rotateRight 24)
  let v := v.set a (v[a] + v[b] + y)
  let v := v.set d ((v[d] ^^^ v[a]).rotateRight 16)
  let v := v.set c (v[c] + v[d])
  v.set b ((v[b] ^^^ v[c]).rotateRight 63)

/-- One round: mix i takes the words `m[s[2i]]` and `m[s[2i+1]]`, s = SIGMA[r mod 10] (R292, R294). -/
def blakeRound (m : List Word64) (v : Vector Word64 16) (r : Nat) : Vector Word64 16 :=
  let s := blakeSigma.getD (r % 10) []
  ((List.range 8).zip blakeQuads).foldl
    (fun v iq => blakeG v iq.2.1 iq.2.2.1 iq.2.2.2.1 iq.2.2.2.2 (m.getD (s.getD (2 * iq.1) 0) 0)
      (m.getD (s.getD (2 * iq.1 + 1) 0) 0)) v

/-- The 16-word local vector before the rounds: the state, the IV, the counter and the final flag (R295). -/
def blakeVector (h : RegFile) (t : Word128) (final : Bool) : Vector Word64 16 :=
  let v : Vector Word64 16 := fill 16 (h.toList ++ blakeIv)
  let v := v.set 12 (v[12] ^^^ t.extractLsb' 0 64)
  let v := v.set 13 (v[13] ^^^ t.extractLsb' 64 64)
  if final then v.set 14 (v[14] ^^^ 0xFFFFFFFFFFFFFFFF) else v

/-- `b2_compress(h, m, t, f)` (R295). -/
def blakeCompress (h : RegFile) (m : List Word64) (t : Word128) (final : Bool) : RegFile :=
  let v := (List.range 12).foldl (blakeRound m) (blakeVector h t final)
  Vector.ofFn fun i : Fin 8 => h[i] ^^^ v[i.val] ^^^ v[i.val + 8]

end Sys2Proof.Machine
end

