-- ==== Sys2Proof/Machine/Encoder.lean ====
section
/-! DEFINITION. The digest encoder: serialization of the state words and hexadecimal rendering
(spec/45_digest_encoder.md R330 to R332). -/

namespace Sys2Proof.Machine

/-- One state word of algorithm `a` as `WB(a)` bytes in the order `WE(a)`. Of a 32-bit algorithm's
register these are the low 32 bits (R331). -/
def wordToBytes (a : Alg) (w : Word64) : List Byte :=
  match wordOrder a with
  | .le => toLe w.toNat (wordBytes a)
  | .be => toBe w.toNat (wordBytes a)

/-- `ser(a, H)` for the context `c`; BLAKE2b's is cut to `CTX.DLEN` bytes (R331,
spec/44_blake2b.md R299). -/
def serialize (c : Ctx) (h : RegFile) : List Byte :=
  ((h.toList.take (stateWords c.alg)).flatMap (wordToBytes c.alg)).take (digestLength c)

/-- `hexchar(v)`, for v < 16 (R332). -/
def hexChar (v : Nat) : Byte :=
  if v < 10 then BitVec.ofNat 8 (0x30 + v) else BitVec.ofNat 8 (0x61 + v - 10)

/-- `hex(D)`: two lower-case characters a byte, the high nibble first (R332). -/
def hexText (d : List Byte) : List Byte :=
  d.flatMap fun b => [hexChar (b.toNat / 16), hexChar (b.toNat % 16)]

end Sys2Proof.Machine
end

