-- ==== Sys2Proof/Machine/Md4Md5.lean ====
section
/-! DEFINITION. The MD4 and MD5 compression functions (spec/41_md4_md5.md R150 to R159). All
arithmetic is on 32-bit words, mod 2^32 (spec/00_scope.md R11). -/

namespace Sys2Proof.Machine

/-- The four accumulators A, B, C, D (R150). -/
structure Quad where
  a : Word32
  b : Word32
  c : Word32
  d : Word32
deriving DecidableEq, Repr

/-- The state words A, B, C, D in H[0..3] (spec/10_state.md R22). -/
def Quad.ofRegs (h : RegFile) : Quad := ⟨lowWord h 0, lowWord h 1, lowWord h 2, lowWord h 3⟩

/-- The four words in order. -/
def Quad.words (q : Quad) : List Word32 := [q.a, q.b, q.c, q.d]

/-- Feed-forward: elementwise addition (R150). -/
def Quad.add (p q : Quad) : Quad := ⟨p.a + q.a, p.b + q.b, p.c + q.c, p.d + q.d⟩

/-- The initial state of MD4 and MD5 (R151). -/
def mdInit : List Word32 := [0x67452301, 0xEFCDAB89, 0x98BADCFE, 0x10325476]

/-! ### MD4 -/

/-- MD4's boolean function of step `i`: F, G, H by round (R153). -/
def md4Func (i : Nat) (x y z : Word32) : Word32 :=
  if i < 16 then (x &&& y) ||| (~~~x &&& z)
  else if i < 32 then (x &&& y) ||| (x &&& z) ||| (y &&& z)
  else x ^^^ y ^^^ z

/-- MD4's message index k(i) (R154), steps 0 to 15. -/
def md4Index0 : List Nat :=
  [0, 1, 2, 3, 4, 5, 6, 7, 8, 9, 10, 11, 12, 13, 14, 15]

/-- MD4's message index k(i) (R154), steps 16 to 31. -/
def md4Index16 : List Nat :=
  [0, 4, 8, 12, 1, 5, 9, 13, 2, 6, 10, 14, 3, 7, 11, 15]

/-- MD4's message index k(i) (R154), steps 32 to 47. -/
def md4Index32 : List Nat :=
  [0, 8, 4, 12, 2, 10, 6, 14, 1, 9, 5, 13, 3, 11, 7, 15]

/-- MD4's message index k(i) (R154). -/
def md4Index : List Nat :=
  md4Index0 ++ md4Index16 ++ md4Index32

/-- MD4's rotation s(i), repeating every 4 steps of a round (R154). -/
def md4Rot (i : Nat) : Nat :=
  if i < 16 then [3, 7, 11, 19].getD (i % 4) 0
  else if i < 32 then [3, 5, 9, 13].getD (i % 4) 0
  else [3, 9, 11, 15].getD (i % 4) 0

/-- MD4's additive constant K(i) (R154; spec/90_conflicts.md C3). -/
def md4Const (i : Nat) : Word32 :=
  if i < 16 then 0x00000000 else if i < 32 then 0x5A827999 else 0x6ED9EBA1

/-- One MD4 step on the block words `x` (R155). -/
def md4Step (x : List Word32) (q : Quad) (i : Nat) : Quad :=
  ⟨q.d, (q.a + md4Func i q.b q.c q.d + x.getD (md4Index.getD i 0) 0 + md4Const i).rotateLeft
    (md4Rot i), q.b, q.c⟩

/-- `md4_compress(S, X)` (R155). -/
def md4Compress (s : Quad) (x : List Word32) : Quad :=
  s.add ((List.range 48).foldl (md4Step x) s)

/-! ### MD5 -/

/-- MD5's boolean function of step `i`: F, G, H, I by round (R156). -/
def md5Func (i : Nat) (x y z : Word32) : Word32 :=
  if i < 16 then (x &&& y) ||| (~~~x &&& z)
  else if i < 32 then (x &&& z) ||| (y &&& ~~~z)
  else if i < 48 then x ^^^ y ^^^ z
  else y ^^^ (x ||| ~~~z)

/-- MD5's additive constants T, in the rows of R157. -/
def md5Const : List Word32 := tableWords 32 8
  [0xd76aa478_e8c7b756_242070db_c1bdceee_f57c0faf_4787c62a_a8304613_fd469501,
   0x698098d8_8b44f7af_ffff5bb1_895cd7be_6b901122_fd987193_a679438e_49b40821,
   0xf61e2562_c040b340_265e5a51_e9b6c7aa_d62f105d_02441453_d8a1e681_e7d3fbc8,
   0x21e1cde6_c33707d6_f4d50d87_455a14ed_a9e3e905_fcefa3f8_676f02d9_8d2a4c8a,
   0xfffa3942_8771f681_6d9d6122_fde5380c_a4beea44_4bdecfa9_f6bb4b60_bebfbc70,
   0x289b7ec6_eaa127fa_d4ef3085_04881d05_d9d4d039_e6db99e5_1fa27cf8_c4ac5665,
   0xf4292244_432aff97_ab9423a7_fc93a039_655b59c3_8f0ccc92_ffeff47d_85845dd1,
   0x6fa87e4f_fe2ce6e0_a3014314_4e0811a1_f7537e82_bd3af235_2ad7d2bb_eb86d391]

/-- MD5's message index k(i) (R158), steps 0 to 15. -/
def md5Index0 : List Nat :=
  [0, 1, 2, 3, 4, 5, 6, 7, 8, 9, 10, 11, 12, 13, 14, 15]

/-- MD5's message index k(i) (R158), steps 16 to 31. -/
def md5Index16 : List Nat :=
  [1, 6, 11, 0, 5, 10, 15, 4, 9, 14, 3, 8, 13, 2, 7, 12]

/-- MD5's message index k(i) (R158), steps 32 to 47. -/
def md5Index32 : List Nat :=
  [5, 8, 11, 14, 1, 4, 7, 10, 13, 0, 3, 6, 9, 12, 15, 2]

/-- MD5's message index k(i) (R158), steps 48 to 63. -/
def md5Index48 : List Nat :=
  [0, 7, 14, 5, 12, 3, 10, 1, 8, 15, 6, 13, 4, 11, 2, 9]

/-- MD5's message index k(i) (R158). -/
def md5Index : List Nat :=
  md5Index0 ++ md5Index16 ++ md5Index32 ++ md5Index48

/-- MD5's rotation s(i), repeating every 4 steps of a round (R158). -/
def md5Rot (i : Nat) : Nat :=
  if i < 16 then [7, 12, 17, 22].getD (i % 4) 0
  else if i < 32 then [5, 9, 14, 20].getD (i % 4) 0
  else if i < 48 then [4, 11, 16, 23].getD (i % 4) 0
  else [6, 10, 15, 21].getD (i % 4) 0

/-- One MD5 step on the block words `x`: it adds b after the rotation (R159). -/
def md5Step (x : List Word32) (q : Quad) (i : Nat) : Quad :=
  ⟨q.d, q.b + (q.a + md5Func i q.b q.c q.d + x.getD (md5Index.getD i 0) 0 +
    md5Const.getD i 0).rotateLeft (md5Rot i), q.b, q.c⟩

/-- `md5_compress(S, X)` (R159). -/
def md5Compress (s : Quad) (x : List Word32) : Quad :=
  s.add ((List.range 64).foldl (md5Step x) s)

end Sys2Proof.Machine
end

