-- ==== Sys2Proof/Machine/Preprocessor.lean ====
section
/-! DEFINITION. The message preprocessor: Merkle–Damgård padding and BLAKE2b's zero padding
(spec/40_preprocessor.md R120 to R127). -/

namespace Sys2Proof.Machine

/-- The zero-fill count z for a tail of `n` bytes (R121, R122). -/
def zeroFill (a : Alg) (n : Nat) : Nat :=
  (blockSize a - (n + 1 + lengthField a) % blockSize a) % blockSize a

/-- The length field: the bit length mod 2^(8·LF), in the algorithm's byte order (R121, R123). -/
def lengthBytes (a : Alg) (total : Nat) : List Byte :=
  let bitlen := (8 * total) % 2 ^ (8 * lengthField a)
  match wordOrder a with
  | .le => toLe bitlen (lengthField a)
  | .be => toBe bitlen (lengthField a)

/-- `md_pad(a, tail, total)`: the tail, the byte 0x80, z zero bytes, the length field (R121, R125). -/
def mdPad (a : Alg) (tail : List Byte) (total : Nat) : List Byte :=
  tail ++ [0x80] ++ zeros (zeroFill a tail.length) ++ lengthBytes a total

/-- `pad(a, m)`, the padded buffer of a whole message (R126). -/
def padMessage (a : Alg) (m : List Byte) : List Byte :=
  m.take (m.length / blockSize a * blockSize a) ++
    mdPad a (m.drop (m.length / blockSize a * blockSize a)) m.length

/-- `b2_pad(tail)`: zeros up to 128 bytes, no terminator and no length field (R127). -/
def blakePad (tail : List Byte) : List Byte := tail ++ zeros (128 - tail.length)

end Sys2Proof.Machine
end

