-- ==== Sys2Proof/Machine/Ripemd160.lean ====
section
/-! DEFINITION. The RIPEMD-160 compression function with its two pipelines (spec/43_ripemd160.md R260
to R270). All arithmetic is on 32-bit words. -/

namespace Sys2Proof.Machine

/-- RIPEMD-160's initial state (R261). -/
def rmdInit : List Word32 := [0x67452301, 0xEFCDAB89, 0x98BADCFE, 0x10325476, 0xC3D2E1F0]

/-- The non-linear function `f(j, x, y, z)`, its ranges closed at both ends (R262; spec/90_conflicts.md C6). -/
def rmdFunc (j : Nat) (x y z : Word32) : Word32 :=
  if j < 16 then x ^^^ y ^^^ z
  else if j < 32 then (x &&& y) ||| (~~~x &&& z)
  else if j < 48 then (x ||| ~~~y) ^^^ z
  else if j < 64 then (x &&& z) ||| (y &&& ~~~z)
  else x ^^^ (y ||| ~~~z)

/-- The left additive constant `K`, by `floor(j / 16)` (R263). -/
def rmdConstLeft (j : Nat) : Word32 :=
  [0x00000000, 0x5A827999, 0x6ED9EBA1, 0x8F1BBCDC, 0xA953FD4E].getD (j / 16) 0

/-- The right additive constant `K'`, by `floor(j / 16)` (R263). -/
def rmdConstRight (j : Nat) : Word32 :=
  [0x50A28BE6, 0x5C4DD124, 0x6D703EF3, 0x7A6D76E9, 0x00000000].getD (j / 16) 0

/-- The left word order r(j) (R264), steps 0 to 15. -/
def rmdIndexLeft0 : List Nat :=
  [0, 1, 2, 3, 4, 5, 6, 7, 8, 9, 10, 11, 12, 13, 14, 15]

/-- The left word order r(j) (R264), steps 16 to 31. -/
def rmdIndexLeft16 : List Nat :=
  [7, 4, 13, 1, 10, 6, 15, 3, 12, 0, 9, 5, 2, 14, 11, 8]

/-- The left word order r(j) (R264), steps 32 to 47. -/
def rmdIndexLeft32 : List Nat :=
  [3, 10, 14, 4, 9, 15, 8, 1, 2, 7, 0, 6, 13, 11, 5, 12]

/-- The left word order r(j) (R264), steps 48 to 63. -/
def rmdIndexLeft48 : List Nat :=
  [1, 9, 11, 10, 0, 8, 12, 4, 13, 3, 7, 15, 14, 5, 6, 2]

/-- The left word order r(j) (R264), steps 64 to 79. -/
def rmdIndexLeft64 : List Nat :=
  [4, 0, 5, 9, 7, 12, 2, 10, 14, 1, 3, 8, 11, 6, 15, 13]

/-- The left word order r(j) (R264). -/
def rmdIndexLeft : List Nat :=
  rmdIndexLeft0 ++ rmdIndexLeft16 ++ rmdIndexLeft32 ++ rmdIndexLeft48 ++ rmdIndexLeft64

/-- The right word order r'(j) (R265), steps 0 to 15. -/
def rmdIndexRight0 : List Nat :=
  [5, 14, 7, 0, 9, 2, 11, 4, 13, 6, 15, 8, 1, 10, 3, 12]

/-- The right word order r'(j) (R265), steps 16 to 31. -/
def rmdIndexRight16 : List Nat :=
  [6, 11, 3, 7, 0, 13, 5, 10, 14, 15, 8, 12, 4, 9, 1, 2]

/-- The right word order r'(j) (R265), steps 32 to 47. -/
def rmdIndexRight32 : List Nat :=
  [15, 5, 1, 3, 7, 14, 6, 9, 11, 8, 12, 2, 10, 0, 4, 13]

/-- The right word order r'(j) (R265), steps 48 to 63. -/
def rmdIndexRight48 : List Nat :=
  [8, 6, 4, 1, 3, 11, 15, 0, 5, 12, 2, 13, 9, 7, 10, 14]

/-- The right word order r'(j) (R265), steps 64 to 79. -/
def rmdIndexRight64 : List Nat :=
  [12, 15, 10, 4, 1, 5, 8, 7, 6, 2, 13, 14, 0, 3, 9, 11]

/-- The right word order r'(j) (R265). -/
def rmdIndexRight : List Nat :=
  rmdIndexRight0 ++ rmdIndexRight16 ++ rmdIndexRight32 ++ rmdIndexRight48 ++ rmdIndexRight64

/-- The left rotation amounts s(j) (R266), steps 0 to 15. -/
def rmdRotLeft0 : List Nat :=
  [11, 14, 15, 12, 5, 8, 7, 9, 11, 13, 14, 15, 6, 7, 9, 8]

/-- The left rotation amounts s(j) (R266), steps 16 to 31. -/
def rmdRotLeft16 : List Nat :=
  [7, 6, 8, 13, 11, 9, 7, 15, 7, 12, 15, 9, 11, 7, 13, 12]

/-- The left rotation amounts s(j) (R266), steps 32 to 47. -/
def rmdRotLeft32 : List Nat :=
  [11, 13, 6, 7, 14, 9, 13, 15, 14, 8, 13, 6, 5, 12, 7, 5]

/-- The left rotation amounts s(j) (R266), steps 48 to 63. -/
def rmdRotLeft48 : List Nat :=
  [11, 12, 14, 15, 14, 15, 9, 8, 9, 14, 5, 6, 8, 6, 5, 12]

/-- The left rotation amounts s(j) (R266), steps 64 to 79. -/
def rmdRotLeft64 : List Nat :=
  [9, 15, 5, 11, 6, 8, 13, 12, 5, 12, 13, 14, 11, 8, 5, 6]

/-- The left rotation amounts s(j) (R266). -/
def rmdRotLeft : List Nat :=
  rmdRotLeft0 ++ rmdRotLeft16 ++ rmdRotLeft32 ++ rmdRotLeft48 ++ rmdRotLeft64

/-- The right rotation amounts s'(j) (R267), steps 0 to 15. -/
def rmdRotRight0 : List Nat :=
  [8, 9, 9, 11, 13, 15, 15, 5, 7, 7, 8, 11, 14, 14, 12, 6]

/-- The right rotation amounts s'(j) (R267), steps 16 to 31. -/
def rmdRotRight16 : List Nat :=
  [9, 13, 15, 7, 12, 8, 9, 11, 7, 7, 12, 7, 6, 15, 13, 11]

/-- The right rotation amounts s'(j) (R267), steps 32 to 47. -/
def rmdRotRight32 : List Nat :=
  [9, 7, 15, 11, 8, 6, 6, 14, 12, 13, 5, 14, 13, 13, 7, 5]

/-- The right rotation amounts s'(j) (R267), steps 48 to 63. -/
def rmdRotRight48 : List Nat :=
  [15, 5, 8, 11, 14, 14, 6, 14, 6, 9, 12, 9, 12, 5, 15, 8]

/-- The right rotation amounts s'(j) (R267), steps 64 to 79. -/
def rmdRotRight64 : List Nat :=
  [8, 5, 12, 9, 12, 5, 14, 6, 8, 13, 6, 5, 15, 13, 11, 11]

/-- The right rotation amounts s'(j) (R267). -/
def rmdRotRight : List Nat :=
  rmdRotRight0 ++ rmdRotRight16 ++ rmdRotRight32 ++ rmdRotRight48 ++ rmdRotRight64

/-- One pipeline step; `f` is the value of the non-linear function on (B, C, D) (R268). -/
def rmdStep (q : Quint) (f k x : Word32) (sh : Nat) : Quint :=
  ⟨q.e, (q.a + f + x + k).rotateLeft sh + q.e, q.b, q.c.rotateLeft 10, q.d⟩

/-- Step `j` of the left pipeline, which uses `f(j, .)` (R262, R270). -/
def rmdLeft (x : List Word32) (q : Quint) (j : Nat) : Quint :=
  rmdStep q (rmdFunc j q.b q.c q.d) (rmdConstLeft j) (x.getD (rmdIndexLeft.getD j 0) 0)
    (rmdRotLeft.getD j 0)

/-- Step `j` of the right pipeline, which uses `f(79 - j, .)` (R262, R270). -/
def rmdRight (x : List Word32) (q : Quint) (j : Nat) : Quint :=
  rmdStep q (rmdFunc (79 - j) q.b q.c q.d) (rmdConstRight j) (x.getD (rmdIndexRight.getD j 0) 0)
    (rmdRotRight.getD j 0)

/-- The cross-combination of the left and right registers with the state before the block (R269). -/
def rmdCombine (h l r : Quint) : Quint :=
  ⟨h.b + l.c + r.d, h.c + l.d + r.e, h.d + l.e + r.a, h.e + l.a + r.b, h.a + l.b + r.c⟩

/-- `rmd160_compress(S, X)`. The pipelines share no register, so each runs on its own (R270). -/
def rmdCompress (s : Quint) (x : List Word32) : Quint :=
  rmdCombine s ((List.range 80).foldl (rmdLeft x) s) ((List.range 80).foldl (rmdRight x) s)

end Sys2Proof.Machine
end

