-- ==== Sys2Proof/Machine/Templates.lean ====
section
/-! DEFINITION. The shared templates of the commands: INIT_MD, COMPRESS_MD, PAD_MD, FINAL_MD,
SERIALIZE_T, HASH_MD (spec/46_control.md R364 to R371, spec/40_preprocessor.md R128,
spec/45_digest_encoder.md R333) and BLAKE2b's own (spec/44_blake2b.md R300 to R304, R372). -/

namespace Sys2Proof.Machine

/-! ### The engines of the MD family -/

/-- One engine of the MD family: its algorithm, `IV_a` and `compress_a` on the bytes of a block, both
as they stand in the register file (spec/46_control.md section 3, R21). -/
structure MdEngine where
  alg : Alg
  iv : RegFile
  compress : RegFile → List Byte → RegFile

/-- MD4 (R151, R155): blocks are read little-endian (R68). -/
def md4Engine : MdEngine :=
  ⟨.md4, regsOf32 mdInit, fun h b => regsOf32 (md4Compress (Quad.ofRegs h) (wordsLe 32 4 b)).words⟩

/-- MD5 (R151, R159): blocks are read little-endian (R68). -/
def md5Engine : MdEngine :=
  ⟨.md5, regsOf32 mdInit, fun h b => regsOf32 (md5Compress (Quad.ofRegs h) (wordsLe 32 4 b)).words⟩

/-- SHA-1 (R201, R204): blocks are read big-endian (R68). -/
def sha1Engine : MdEngine :=
  ⟨.sha1, regsOf32 sha1Init,
    fun h b => regsOf32 (sha1Compress (Quint.ofRegs h) (wordsBe 32 4 b)).words⟩

/-- SHA-256 (R205, R209): blocks are read big-endian (R68). -/
def sha256Engine : MdEngine :=
  ⟨.sha256, regsOf32 sha256Init,
    fun h b => regsOf32 (sha256Compress (Oct.ofRegs32 h) (wordsBe 32 4 b)).words⟩

/-- SHA-512 (R210, R214): blocks are read big-endian in 8-byte words (R68). -/
def sha512Engine : MdEngine :=
  ⟨.sha512, regsOf64 sha512Init,
    fun h b => regsOf64 (sha512Compress (Oct.ofRegs64 h) (wordsBe 64 8 b)).words⟩

/-- RIPEMD-160 (R261, R270): blocks are read little-endian (R68). -/
def ripemd160Engine : MdEngine :=
  ⟨.ripemd160, regsOf32 rmdInit,
    fun h b => regsOf32 (rmdCompress (Quint.ofRegs h) (wordsLe 32 4 b)).words⟩

/-- The six engines of the MD family (R93). -/
def mdEngines : List MdEngine :=
  [md4Engine, md5Engine, sha1Engine, sha256Engine, sha512Engine, ripemd160Engine]

/-- Compress the first `k` blocks of `bs` bytes each, in order (the block loops of R366 and R371). -/
def absorb (f : RegFile → List Byte → RegFile) (bs : Nat) : Nat → RegFile → List Byte → RegFile
  | 0, h, _ => h
  | k + 1, h, m => absorb f bs k (f h (m.take bs)) (m.drop bs)

/-- All whole blocks of `m`. -/
def absorbAll (e : MdEngine) (h : RegFile) (m : List Byte) : RegFile :=
  absorb e.compress (blockSize e.alg) (m.length / blockSize e.alg) h m

/-! ### Opening and closing a context -/

/-- What every INIT writes once its checks have passed (R364, R300). -/
def openContext (c : Ctx) (h : RegFile) (s : State) : State :=
  { s with
    h := h
    t := 0
    ctx := c
    padbuf := fill 256 []
    padcnt := 0
    digest := fill 64 []
    diglen := 0
    hex := fill 128 []
    hexlen := 0
    phase := .active
    code := .ok }

/-- The digest `d` in DIGEST and DIGLEN, with HEX cleared (R27, R28, R333). -/
def storeDigest (d : List Byte) (s : State) : State :=
  { s with digest := fill 64 d, diglen := digestFlag d, hex := fill 128 [], hexlen := 0 }

/-- The text `x` in HEX and HEXLEN (R341). -/
def storeHex (x : List Byte) (s : State) : State :=
  { s with hex := fill 128 x, hexlen := hexFlag x }

/-- The padding `p` in PADBUF and PADCNT (R128). -/
def storePadding (a : Alg) (p : List Byte) (s : State) : State :=
  { s with padbuf := fill 256 p, padcnt := padCount a p }

/-- What FINAL and HASH write at the end of a message: the final state words, the length, the
padding, the digest; HEX cleared, PHASE DONE (R366, R371, R303, R372). -/
def closeContext (c : Ctx) (h : RegFile) (t : Word128) (p : List Byte) (s : State) : State :=
  { storeDigest (serialize c h) (storePadding c.alg p s) with
    h := h
    t := t
    ctx := c
    phase := .done
    code := .ok }

/-! ### Templates of the MD family -/

/-- INIT_MD (R364). -/
def initMd (e : MdEngine) (s : State) : Result := .next (openContext ⟨e.alg, 0, 0⟩ e.iv s)

/-- COMPRESS_MD (R365). -/
def compressMd (e : MdEngine) (s : State) : Result :=
  if activeFor s e.alg then
    .next
      { s with
        h := e.compress s.h (blockOperand s e.alg)
        t := advanced s (blockSize e.alg)
        code := .ok }
  else .next (raise .errSeq s)

/-- PAD_MD (R128): ERR_SEQ, then ERR_LEN. -/
def padMd (a : Alg) (n : Nat) (s : State) : Result :=
  if activeFor s a then
    if tailTooLong a n then .next (raise .errLen s)
    else
      .next { storePadding a (mdPad a (tailOperand s n) (advanced s n).toNat) s with code := .ok }
  else .next (raise .errSeq s)

/-- FINAL_MD (R366): ERR_SEQ, then ERR_LEN. -/
def finalMd (e : MdEngine) (n : Nat) (s : State) : Result :=
  if activeFor s e.alg then
    if tailTooLong e.alg n then .next (raise .errLen s)
    else
      let p := mdPad e.alg (tailOperand s n) (advanced s n).toNat
      .next (closeContext s.ctx (absorbAll e s.h p) (advanced s n) p s)
  else .next (raise .errSeq s)

/-- The message HASH reads, `MemRead(0, MLEN)` (R67, R371). -/
def message (s : State) : List Byte := memRead s 0 s.mlen.toNat

/-- The tail of a message after its whole blocks (R371). -/
def messageTail (a : Alg) (m : List Byte) : List Byte :=
  m.drop (m.length / blockSize a * blockSize a)

/-- HASH_MD (R370, R371): ERR_MLEN before any read. -/
def hashMd (e : MdEngine) (s : State) : Result :=
  if messageTooLong s then .next (raise .errMlen s)
  else
    let m := message s
    let p := mdPad e.alg (messageTail e.alg m) m.length
    let h := absorbAll e (absorbAll e e.iv m) p
    let c : Ctx := ⟨e.alg, 0, 0⟩
    .next (storeHex (hexText (serialize c h)) (closeContext c h (s.mlen.setWidth 128) p s))

/-! ### BLAKE2b -/

/-- One block that is not the last: T counts it before it is compressed, with f = 0 (R296, R302). -/
def blakeUpdate (ht : RegFile × Word128) (block : List Byte) : RegFile × Word128 :=
  (blakeCompress ht.1 (wordsLe 64 8 block) (ht.2 + 128) false, ht.2 + 128)

/-- The first `k` blocks of the data, none of them the last (R372). -/
def blakeAbsorb : Nat → RegFile × Word128 → List Byte → RegFile × Word128
  | 0, ht, _ => ht
  | k + 1, ht, data => blakeAbsorb k (blakeUpdate ht (data.take 128)) (data.drop 128)

/-- The last block: zero padding, T counts the real bytes, f = 1 (R296, R303). -/
def blakeFinish (ht : RegFile × Word128) (tail : List Byte) : RegFile × Word128 :=
  let t := ht.2 + BitVec.ofNat 128 tail.length
  (blakeCompress ht.1 (wordsLe 64 8 (blakePad tail)) t true, t)

/-- INIT.BLAKE2B (R300): ERR_DLEN, then ERR_KLEN. -/
def initBlake (s : State) : Result :=
  match configFault s with
  | some c => .next (configError c s)
  | none =>
    .next (openContext ⟨.blake2b, s.cfg.dlen, s.cfg.klen⟩ (blakeInit s.cfg.dlen s.cfg.klen) s)

/-- COMPRESS.BLAKE2B (R302). -/
def compressBlake (s : State) : Result :=
  if activeFor s .blake2b then
    let ht := blakeUpdate (s.h, s.t) (blockOperand s .blake2b)
    .next { s with h := ht.1, t := ht.2, code := .ok }
  else .next (raise .errSeq s)

/-- PAD.BLAKE2B (R136): ERR_SEQ, then ERR_LEN; no n = 0 guard. -/
def padBlake (n : Nat) (s : State) : Result :=
  if activeFor s .blake2b then
    if tailTooLong .blake2b n then .next (raise .errLen s)
    else .next { storePadding .blake2b (blakePad (tailOperand s n)) s with code := .ok }
  else .next (raise .errSeq s)

/-- The n = 0 guard of FINAL.BLAKE2B: an empty last block that is not the whole input (R304). -/
def emptyTailRefused (n : Nat) (s : State) : Bool := n == 0 && (s.t != 0 || s.ctx.klen != 0)

/-- FINAL.BLAKE2B (R303): ERR_SEQ, then ERR_LEN for n > 128 and for the guard of R304. -/
def finalBlake (n : Nat) (s : State) : Result :=
  if activeFor s .blake2b then
    if tailTooLong .blake2b n || emptyTailRefused n s then .next (raise .errLen s)
    else
      let ht := blakeFinish (s.h, s.t) (tailOperand s n)
      .next (closeContext s.ctx ht.1 ht.2 (blakePad (tailOperand s n)) s)
  else .next (raise .errSeq s)

/-- The input of HASH.BLAKE2B: the key block, if there is a key, then the message (R298, R372). -/
def blakeData (s : State) : List Byte :=
  if s.cfg.klen = 0 then message s
  else prefixOf s.key s.cfg.klen.toNat ++ zeros (128 - s.cfg.klen.toNat) ++ message s

/-- How many blocks come before the last one, `dd - 1` with dd = max(1, ceil(len / 128)) (R372). -/
def blakeLeading (data : List Byte) : Nat := max 1 ((data.length + 127) / 128) - 1

/-- HASH_B2 (R370, R372): ERR_DLEN, ERR_KLEN, then ERR_MLEN. -/
def hashBlake (s : State) : Result :=
  match configFault s with
  | some c => .next (configError c s)
  | none =>
    if messageTooLong s then .next (raise .errMlen s)
    else
      let data := blakeData s
      let lead := blakeLeading data
      let tail := data.drop (128 * lead)
      let ht := blakeFinish (blakeAbsorb lead (blakeInit s.cfg.dlen s.cfg.klen, 0) data) tail
      let c : Ctx := ⟨.blake2b, s.cfg.dlen, s.cfg.klen⟩
      .next (storeHex (hexText (serialize c ht.1)) (closeContext c ht.1 ht.2 (blakePad tail) s))

/-! ### SERIALIZE -/

/-- SERIALIZE_T (spec/45_digest_encoder.md R333). -/
def serializeTemplate (a : Alg) (s : State) : Result :=
  if openFor s a then .next { storeDigest (serialize s.ctx s.h) s with code := .ok }
  else .next (raise .errSeq s)

end Sys2Proof.Machine
end

