-- ==== Sys2Proof/Machine/Compress.lean ====
section
/-! DEFINITION. The meanings of the seven COMPRESS commands (spec/41_md4_md5.md R161, R164, spec/42_sha.md R221, R224,
R227, spec/43_ripemd160.md R272, spec/44_blake2b.md R302). -/

namespace Sys2Proof.Machine

/-- COMPRESS.MD4 (R161). -/
def execCompressMd4 (s : State) : Result := compressMd md4Engine s

/-- COMPRESS.MD5 (R164). -/
def execCompressMd5 (s : State) : Result := compressMd md5Engine s

/-- COMPRESS.SHA1 (R221). -/
def execCompressSha1 (s : State) : Result := compressMd sha1Engine s

/-- COMPRESS.SHA256 (R224). -/
def execCompressSha256 (s : State) : Result := compressMd sha256Engine s

/-- COMPRESS.SHA512 (R227). -/
def execCompressSha512 (s : State) : Result := compressMd sha512Engine s

/-- COMPRESS.RIPEMD160 (R272). -/
def execCompressRipemd160 (s : State) : Result := compressMd ripemd160Engine s

/-- COMPRESS.BLAKE2B (R302). -/
def execCompressBlake2b (s : State) : Result := compressBlake s

end Sys2Proof.Machine
end

