-- ==== Sys2Proof/Machine/Control.lean ====
section
/-! DEFINITION. The commands with no algorithm: NOP and SRESET (spec/46_control.md R362, R363) and
ENCODE (spec/45_digest_encoder.md R341), and power-on reset (spec/70_reset_and_hazards.md R440). -/

namespace Sys2Proof.Machine

/-- NOP (R363): CODE alone. -/
def execNop (s : State) : Result := .next { s with code := .ok }

/-- SRESET (R362, R43): every register and buffer at its reset value; MSG and MSGCAP unchanged. BUSY
falls, and PEND becomes unspecified, as the step ends (`complete`). -/
def execSreset (s : State) : Result :=
  .next
    { State.reset with
      busy := s.busy
      pend := s.pend
      msgcap := s.msgcap
      msg := s.msg
      powerOns := s.powerOns
      draws := s.draws
      schedule := s.schedule
      seen := s.seen }

/-- ENCODE (R341): ERR_SEQ if there is no digest. -/
def execEncodeDigest (s : State) : Result :=
  if s.diglen = 0 then .next (raise .errSeq s)
  else .next { storeHex (hexText (prefixOf s.digest s.diglen.toNat)) s with code := .ok }

/-- Power-on reset (R440, R441): the reset values, message memory unspecified anew, a command in
progress abandoned. MSGCAP keeps the instance's value (R37). One atomic event (assumption 18). -/
def powerOnReset (s : State) : State :=
  { State.reset with
    pend := Config.freePend s.draws
    msgcap := s.msgcap
    powerOns := s.powerOns + 1
    draws := s.draws + 1
    schedule := s.schedule
    seen := s.seen }

end Sys2Proof.Machine
end

