-- ==== Sys2Proof/Machine/Final.lean ====
section
/-! DEFINITION. The meanings of the seven FINAL commands (spec/41_md4_md5.md R162, R165, spec/42_sha.md R222, R225,
R228, spec/43_ripemd160.md R273, spec/44_blake2b.md R303, R304). -/

namespace Sys2Proof.Machine

/-- FINAL.MD4 n (R162). -/
def execFinalMd4 (n : Nat) (s : State) : Result := finalMd md4Engine n s

/-- FINAL.MD5 n (R165). -/
def execFinalMd5 (n : Nat) (s : State) : Result := finalMd md5Engine n s

/-- FINAL.SHA1 n (R222). -/
def execFinalSha1 (n : Nat) (s : State) : Result := finalMd sha1Engine n s

/-- FINAL.SHA256 n (R225). -/
def execFinalSha256 (n : Nat) (s : State) : Result := finalMd sha256Engine n s

/-- FINAL.SHA512 n (R228). -/
def execFinalSha512 (n : Nat) (s : State) : Result := finalMd sha512Engine n s

/-- FINAL.RIPEMD160 n (R273). -/
def execFinalRipemd160 (n : Nat) (s : State) : Result := finalMd ripemd160Engine n s

/-- FINAL.BLAKE2B n (R303). -/
def execFinalBlake2b (n : Nat) (s : State) : Result := finalBlake n s

end Sys2Proof.Machine
end

