-- ==== Sys2Proof/Machine/Hash.lean ====
section
/-! DEFINITION. The meanings of the seven HASH commands (spec/46_control.md R370 to R379). -/

namespace Sys2Proof.Machine

/-- HASH.MD4 (R373). -/
def execHashMd4 (s : State) : Result := hashMd md4Engine s

/-- HASH.MD5 (R374). -/
def execHashMd5 (s : State) : Result := hashMd md5Engine s

/-- HASH.SHA1 (R375). -/
def execHashSha1 (s : State) : Result := hashMd sha1Engine s

/-- HASH.SHA256 (R376). -/
def execHashSha256 (s : State) : Result := hashMd sha256Engine s

/-- HASH.SHA512 (R377). -/
def execHashSha512 (s : State) : Result := hashMd sha512Engine s

/-- HASH.RIPEMD160 (R378). -/
def execHashRipemd160 (s : State) : Result := hashMd ripemd160Engine s

/-- HASH.BLAKE2B (R379). -/
def execHashBlake2b (s : State) : Result := hashBlake s

end Sys2Proof.Machine
end

