-- ==== Sys2Proof/Machine/Init.lean ====
section
/-! DEFINITION. The meanings of the seven INIT commands (spec/41_md4_md5.md R160, R163, spec/42_sha.md R220, R223,
R226, spec/43_ripemd160.md R271, spec/44_blake2b.md R300). -/

namespace Sys2Proof.Machine

/-- INIT.MD4 (R160). -/
def execInitMd4 (s : State) : Result := initMd md4Engine s

/-- INIT.MD5 (R163). -/
def execInitMd5 (s : State) : Result := initMd md5Engine s

/-- INIT.SHA1 (R220). -/
def execInitSha1 (s : State) : Result := initMd sha1Engine s

/-- INIT.SHA256 (R223). -/
def execInitSha256 (s : State) : Result := initMd sha256Engine s

/-- INIT.SHA512 (R226). -/
def execInitSha512 (s : State) : Result := initMd sha512Engine s

/-- INIT.RIPEMD160 (R271). -/
def execInitRipemd160 (s : State) : Result := initMd ripemd160Engine s

/-- INIT.BLAKE2B (R300). -/
def execInitBlake2b (s : State) : Result := initBlake s

end Sys2Proof.Machine
end

