-- ==== Sys2Proof/Machine/Pad.lean ====
section
/-! DEFINITION. The meanings of the seven PAD commands (spec/40_preprocessor.md R130 to R136). -/

namespace Sys2Proof.Machine

/-- PAD.MD4 n (R130). -/
def execPadMd4 (n : Nat) (s : State) : Result := padMd .md4 n s

/-- PAD.MD5 n (R131). -/
def execPadMd5 (n : Nat) (s : State) : Result := padMd .md5 n s

/-- PAD.SHA1 n (R132). -/
def execPadSha1 (n : Nat) (s : State) : Result := padMd .sha1 n s

/-- PAD.SHA256 n (R133). -/
def execPadSha256 (n : Nat) (s : State) : Result := padMd .sha256 n s

/-- PAD.SHA512 n (R134). -/
def execPadSha512 (n : Nat) (s : State) : Result := padMd .sha512 n s

/-- PAD.RIPEMD160 n (R135). -/
def execPadRipemd160 (n : Nat) (s : State) : Result := padMd .ripemd160 n s

/-- PAD.BLAKE2B n (R136). -/
def execPadBlake2b (n : Nat) (s : State) : Result := padBlake n s

end Sys2Proof.Machine
end

