-- ==== Sys2Proof/Machine/Serialize.lean ====
section
/-! DEFINITION. The meanings of the seven SERIALIZE commands (spec/45_digest_encoder.md R334 to R340). -/

namespace Sys2Proof.Machine

/-- SERIALIZE.MD4 (R334). -/
def execSerializeMd4 (s : State) : Result := serializeTemplate .md4 s

/-- SERIALIZE.MD5 (R335). -/
def execSerializeMd5 (s : State) : Result := serializeTemplate .md5 s

/-- SERIALIZE.SHA1 (R336). -/
def execSerializeSha1 (s : State) : Result := serializeTemplate .sha1 s

/-- SERIALIZE.SHA256 (R337). -/
def execSerializeSha256 (s : State) : Result := serializeTemplate .sha256 s

/-- SERIALIZE.SHA512 (R338). -/
def execSerializeSha512 (s : State) : Result := serializeTemplate .sha512 s

/-- SERIALIZE.RIPEMD160 (R339). -/
def execSerializeRipemd160 (s : State) : Result := serializeTemplate .ripemd160 s

/-- SERIALIZE.BLAKE2B (R340). -/
def execSerializeBlake2b (s : State) : Result := serializeTemplate .blake2b s

end Sys2Proof.Machine
end

