-- ==== Sys2Proof/Machine/Dispatch.lean ====
section
/-! DEFINITION. The dispatch table of spec/46_control.md R380: one arm per command, in the order of
spec/opcode_table.json. -/

namespace Sys2Proof.Machine

def exec (i : Instr) (s : State) : Host.Outcome State Fault Refusal :=
  match i with
  | .nop => Sys2Proof.Machine.execNop s
  | .initMd4 => Sys2Proof.Machine.execInitMd4 s
  | .initMd5 => Sys2Proof.Machine.execInitMd5 s
  | .initSha1 => Sys2Proof.Machine.execInitSha1 s
  | .initSha256 => Sys2Proof.Machine.execInitSha256 s
  | .initSha512 => Sys2Proof.Machine.execInitSha512 s
  | .initRipemd160 => Sys2Proof.Machine.execInitRipemd160 s
  | .initBlake2b => Sys2Proof.Machine.execInitBlake2b s
  | .compressMd4 => Sys2Proof.Machine.execCompressMd4 s
  | .compressMd5 => Sys2Proof.Machine.execCompressMd5 s
  | .compressSha1 => Sys2Proof.Machine.execCompressSha1 s
  | .compressSha256 => Sys2Proof.Machine.execCompressSha256 s
  | .compressSha512 => Sys2Proof.Machine.execCompressSha512 s
  | .compressRipemd160 => Sys2Proof.Machine.execCompressRipemd160 s
  | .compressBlake2b => Sys2Proof.Machine.execCompressBlake2b s
  | .padMd4 n => Sys2Proof.Machine.execPadMd4 n s
  | .padMd5 n => Sys2Proof.Machine.execPadMd5 n s
  | .padSha1 n => Sys2Proof.Machine.execPadSha1 n s
  | .padSha256 n => Sys2Proof.Machine.execPadSha256 n s
  | .padSha512 n => Sys2Proof.Machine.execPadSha512 n s
  | .padRipemd160 n => Sys2Proof.Machine.execPadRipemd160 n s
  | .padBlake2b n => Sys2Proof.Machine.execPadBlake2b n s
  | .finalMd4 n => Sys2Proof.Machine.execFinalMd4 n s
  | .finalMd5 n => Sys2Proof.Machine.execFinalMd5 n s
  | .finalSha1 n => Sys2Proof.Machine.execFinalSha1 n s
  | .finalSha256 n => Sys2Proof.Machine.execFinalSha256 n s
  | .finalSha512 n => Sys2Proof.Machine.execFinalSha512 n s
  | .finalRipemd160 n => Sys2Proof.Machine.execFinalRipemd160 n s
  | .finalBlake2b n => Sys2Proof.Machine.execFinalBlake2b n s
  | .serializeMd4 => Sys2Proof.Machine.execSerializeMd4 s
  | .serializeMd5 => Sys2Proof.Machine.execSerializeMd5 s
  | .serializeSha1 => Sys2Proof.Machine.execSerializeSha1 s
  | .serializeSha256 => Sys2Proof.Machine.execSerializeSha256 s
  | .serializeSha512 => Sys2Proof.Machine.execSerializeSha512 s
  | .serializeRipemd160 => Sys2Proof.Machine.execSerializeRipemd160 s
  | .serializeBlake2b => Sys2Proof.Machine.execSerializeBlake2b s
  | .encodeDigest => Sys2Proof.Machine.execEncodeDigest s
  | .hashMd4 => Sys2Proof.Machine.execHashMd4 s
  | .hashMd5 => Sys2Proof.Machine.execHashMd5 s
  | .hashSha1 => Sys2Proof.Machine.execHashSha1 s
  | .hashSha256 => Sys2Proof.Machine.execHashSha256 s
  | .hashSha512 => Sys2Proof.Machine.execHashSha512 s
  | .hashRipemd160 => Sys2Proof.Machine.execHashRipemd160 s
  | .hashBlake2b => Sys2Proof.Machine.execHashBlake2b s
  | .sreset => Sys2Proof.Machine.execSreset s

end Sys2Proof.Machine
end

