-- ==== Sys2Proof/Machine/Engine.lean ====
section
/-! DEFINITION. The engine step (spec/46_control.md R360) and the transitions of the whole machine
(spec/20_memory.md R74). -/

namespace Sys2Proof.Machine

/-- EngineStep on PEND, for BUSY = 1 (R360): an illegal word changes CODE alone; any other runs its
rule; then the command completes. -/
def engineStep (s : State) : Result :=
  match decode s.pend with
  | .error _ => .next (complete (raise .errIllegal s))
  | .ok i =>
    match exec i s with
    | .next t => .next (complete t)
    | .fault r => .fault r
    | .refused r => .refused r

/-- The engine's turn: its step if it is enabled, else nothing (R360; assumption 15). -/
def engineTurn (s : State) : Result := if s.busy then engineStep s else .next s

/-- One scheduled event, already taken off the schedule. -/
def runEvent (e : Event) (s : State) : Result :=
  match e with
  | .access a => hostAccess a s
  | .engine => engineTurn s
  | .powerOn => .next (powerOnReset s)

/-- One transition: the next scheduled event. With nothing scheduled the engine takes its turn, so a
pending command completes (R458); an idle HCE keeps its state (R415; assumption 14). -/
def transition (s : State) : Result :=
  match s.schedule with
  | [] => engineTurn s
  | e :: rest => runEvent e { s with schedule := rest }

end Sys2Proof.Machine
end

