-- ==== Sys2Proof/Machine/Step.lean ====
section
/-! DEFINITION. The step of the machine, and how an instruction is placed where the next step runs it. -/

namespace Sys2Proof.Machine

/-- One step: one transition of R74. -/
def step (s : State) : Host.Outcome State Fault Refusal := transition s

/-- `s` with the command word `w` issued and the engine's turn next: what a host write of CMD leaves
(R35), with the engine moving before any other agent (assumption 13). HCE fetches no instructions
(R39, R77); PEND is where its step takes the command from (R36, R360). -/
def State.withFetchWord (s : State) (nbits w : Nat) : State :=
  { s with
    pend := BitVec.ofNat 32 (w % 2 ^ nbits)
    busy := true
    schedule := .engine :: s.schedule }

end Sys2Proof.Machine
end

