-- ==== Sys2Proof/Machine/HostProgram.lean ====
section
/-! DEFINITION. Host programs as schedules: the host steps and pseudo-instructions of
spec/30_encoding.md R102. The number of polls a `wait` needs is not fixed by any rule (R458), so it is
an argument (assumption 19). -/

namespace Sys2Proof.Machine

/-- The offset of a register word (R61); `reserved` stands for offset 0x030, one of many. -/
def offsetOf : HostReg → Nat
  | .cmd => 0x000
  | .status => 0x004
  | .cfg => 0x008
  | .ctx => 0x00C
  | .mlenLo => 0x010
  | .mlenHi => 0x014
  | .msgcapLo => 0x018
  | .msgcapHi => 0x01C
  | .t k => 0x020 + 4 * k
  | .reserved => 0x030
  | .hLo i => 0x040 + 8 * i
  | .hHi i => 0x044 + 8 * i
  | .digest k => 0x080 + 4 * k
  | .blk k => 0x100 + 4 * k
  | .key k => 0x180 + 4 * k
  | .padbuf k => 0x200 + 4 * k
  | .hex k => 0x300 + 4 * k

/-- `wr REG, v` (R102). -/
def hostWr (r : HostReg) (v : Word32) : Event := .access (.write 32 (offsetOf r) v)

/-- `rd REG` (R102). -/
def hostRd (r : HostReg) : Event := .access (.read 32 (offsetOf r))

/-- `msg a, [b0, b1, ...]`: one HostMsgWrite per byte (R102). -/
def hostMsg : Nat → List Byte → List Event
  | _, [] => []
  | a, b :: bs => .access (.msgWrite a b) :: hostMsg (a + 1) bs

/-- `wait`: `polls` reads of STATUS that see BUSY = 1, then the engine's turn, then the read that sees
BUSY = 0 (R102, R458). -/
def hostWait (polls : Nat) : List Event := List.replicate polls (hostRd .status) ++ [.engine, hostRd .status]

/-- `cmd X`: `wr CMD, enc(X)`, then `wait` (R102). -/
def hostCmd (i : Instr) (polls : Nat) : List Event := hostWr .cmd (encode i) :: hostWait polls

/-- The words `w_k` of `blk` and `key`, the last one zero-filled, from word `k` on (R102). -/
def loadWords (reg : Nat → HostReg) (k : Nat) (bs : List Byte) : List Event :=
  (List.range ((bs.length + 3) / 4)).map fun j =>
    hostWr (reg (k + j)) (BitVec.ofNat 32 (fromLe ((bs.drop (4 * j)).take 4)))

/-- `blk "bytes"` (R102). DESIGN CHOICE (assumption 23): R102 allows at most 128 bytes and gives a longer list
no meaning; here word 32 on goes to the offsets after BLK_31, KEY_0 first. -/
def hostBlk (bs : List Byte) : List Event := loadWords .blk 0 bs

/-- `key "bytes"` (R102). DESIGN CHOICE (assumption 23): KEY holds 64 bytes and R102 gives a longer list no
meaning; here word 16 on goes to the reserved offsets after KEY_15. -/
def hostKey (bs : List Byte) : List Event := loadWords .key 0 bs

/-- `mlen v` (R102). -/
def hostMlen (v : Word64) : List Event := [hostWr .mlenLo (v.extractLsb' 0 32), hostWr .mlenHi (v.extractLsb' 32 32)]

end Sys2Proof.Machine
end

