-- ==== Sys2Proof/Safety.lean ====
section
/-! DEFINITION. The terms claims use: the invariants every transition keeps, programs of commands at
the level of their meanings, and which codes and effects a command may have. -/

namespace Sys2Proof.Machine

/-! ### Invariants -/

/-- Message memory is in its canonical form, lists no address outside MSG (R38, R66), and the capacity
is legal (R9). -/
structure MemoryInv (s : State) : Prop where
  canonical : Memory.wf s.msg = true
  inside : ∀ c ∈ s.msg, c.1 < s.msgcap.toNat
  capacity : s.msgcap ≠ 0

/-- CTX holds parameters a context can have: BLAKE2b's passed the configuration checks, every other
algorithm's are 0 (R31, R300, R364). -/
def ctxLegal (c : Ctx) : Prop :=
  if c.alg = .blake2b then 1 ≤ c.dlen.toNat ∧ c.dlen.toNat ≤ 64 ∧ c.klen.toNat ≤ 64
  else c.dlen = 0 ∧ c.klen = 0

/-- What R21 says of H: registers past NW(a) are 0, and so are the high halves of a 32-bit algorithm. -/
def registersClean (s : State) : Prop :=
  ∀ i : Fin 8,
    (stateWords s.ctx.alg ≤ i.val → s.h[i] = 0) ∧
    (wordBytes s.ctx.alg = 4 → (s.h[i]).extractLsb' 32 32 = 0)

/-- What R26 says of PADBUF: 0, 1 or 2 blocks, and zeros past them. -/
def paddingClean (s : State) : Prop :=
  s.padcnt.toNat ≤ 2 ∧
  ∀ i : Fin 256, s.padcnt.toNat * blockSize s.ctx.alg ≤ i.val → s.padbuf[i] = 0

/-- What R27 says of DIGEST: no digest, or one of the context's length, and zeros past it. -/
def digestClean (s : State) : Prop :=
  (s.diglen = 0 ∨ s.diglen.toNat = digestLength s.ctx) ∧
  ∀ i : Fin 64, s.diglen.toNat ≤ i.val → s.digest[i] = 0

/-- What R28 says of HEX: empty, or the rendering of the current digest. -/
def hexClean (s : State) : Prop :=
  (s.hexlen = 0 ∧ s.hex = fill 128 []) ∨
  (s.hexlen.toNat = 2 * s.diglen.toNat ∧
    s.hex = fill 128 (hexText (prefixOf s.digest s.diglen.toNat)))

/-- The digest by phase: none in IDLE; in DONE the serialization of H (R33, R366, R371, R405). -/
def phaseDigest (s : State) : Prop :=
  (s.phase = .idle → s.diglen = 0) ∧
  (s.phase = .done →
    s.diglen.toNat = digestLength s.ctx ∧ s.digest = fill 64 (serialize s.ctx s.h))

/-- The invariant of the engine's registers. -/
structure ContextInv (s : State) : Prop where
  ctx : ctxLegal s.ctx
  registers : registersClean s
  padding : paddingClean s
  digest : digestClean s
  hex : hexClean s
  phase : phaseDigest s

/-! ### Programs of commands -/

/-- The host has written `bytes` to BLK[0..len), and no other byte of BLK (assumption 22). -/
def loadBlk (bytes : List Byte) (s : State) : State :=
  { s with blk := fill 128 (bytes ++ s.blk.toList.drop bytes.length) }

/-- A block-interface program: before each command the host loads bytes into BLK. -/
abbrev BlockProgram := List (List Byte × Instr)

/-- Run a block-interface program, command by command. -/
def runProgram : BlockProgram → State → Result
  | [], s => .next s
  | (bytes, i) :: p, s =>
    match exec i (loadBlk bytes s) with
    | .next t => runProgram p t
    | .fault r => .fault r
    | .refused r => .refused r

/-- COMPRESS on each of the first `k` blocks of `m`. -/
def compressBlocks (a : Alg) : Nat → List Byte → BlockProgram
  | 0, _ => []
  | k + 1, m => (m.take (blockSize a), compressOf a) :: compressBlocks a k (m.drop (blockSize a))

/-- The canonical block program of an MD-family algorithm for the message `m` (R367). -/
def mdProgram (a : Alg) (m : List Byte) : BlockProgram :=
  ([], initOf a) :: compressBlocks a (m.length / blockSize a) m ++
    [(messageTail a m, finalOf a (messageTail a m).length)]

/-- The BLAKE2b block program for `data`, the key block followed by the message (R368). -/
def blakeProgram (data : List Byte) : BlockProgram :=
  ([], .initBlake2b) :: compressBlocks .blake2b (blakeLeading data) data ++
    [(data.drop (128 * blakeLeading data), .finalBlake2b (data.length - 128 * blakeLeading data))]

/-- Two states agree on everything a finished hash leaves but BLK and HEX (R367, R368). -/
def sameOutcome (s t : State) : Prop :=
  s.h = t.h ∧ s.t = t.t ∧ s.ctx = t.ctx ∧ s.padbuf = t.padbuf ∧ s.padcnt = t.padcnt ∧
  s.digest = t.digest ∧ s.diglen = t.diglen ∧ s.phase = t.phase ∧ s.code = t.code

/-- How many bytes of BLK a command reads, from byte 0 on (R24). -/
def blkRead (i : Instr) : Nat :=
  match i.fields with
  | (.compress, a, _) => blockSize a
  | (.pad, _, n) | (.final, _, n) => n
  | (.nop, _, _) | (.init, _, _) | (.serialize, _, _) | (.encodeDigest, _, _) | (.hash, _, _)
  | (.sreset, _, _) => 0

/-- The phase after a command of operation `op` that completes with code `c` from phase `p` (R33). -/
def phaseAfter (op : Op) (c : Code) (p : Phase) : Phase :=
  match op, c with
  | .sreset, _ => .idle
  | .init, .ok => .active
  | .final, .ok => .done
  | .hash, .ok => .done
  | _, .errDlen => .idle
  | _, .errKlen => .idle
  | _, _ => p

/-! ### Illegal words and the causes of the error codes -/

/-- The five conditions under which a word is illegal, on its bits (R97). -/
def illegalWord (c : BitVec 32) : Prop :=
  c.extractLsb' 16 16 ≠ 0 ∨
  (8 ≤ (c.extractLsb' 0 4).toNat ∧ (c.extractLsb' 0 4).toNat ≤ 14) ∨
  ((c.extractLsb' 0 4).toNat ∈ [0, 6, 15] ∧ c.extractLsb' 4 12 ≠ 0) ∨
  ((c.extractLsb' 0 4).toNat ∈ [1, 2, 3, 4, 5, 7] ∧ 7 ≤ (c.extractLsb' 4 4).toNat) ∨
  ((c.extractLsb' 0 4).toNat ∈ [1, 2, 5, 7] ∧ c.extractLsb' 8 8 ≠ 0)

/-- The cause of ERR_SEQ (R401). -/
def seqFails (i : Instr) (s : State) : Bool :=
  match i.fields with
  | (.compress, a, _) | (.pad, a, _) | (.final, a, _) => s.phase != .active || s.ctx.alg != a
  | (.serialize, a, _) => s.phase == .idle || s.ctx.alg != a
  | (.encodeDigest, _, _) => s.diglen == 0
  | (.nop, _, _) | (.init, _, _) | (.hash, _, _) | (.sreset, _, _) => false

/-- The commands that read CFG (R29). -/
def readsCfg (i : Instr) : Bool := i == .initBlake2b || i == .hashBlake2b

/-- The cause of ERR_DLEN (R401). -/
def dlenFails (i : Instr) (s : State) : Bool :=
  readsCfg i && (s.cfg.dlen.toNat == 0 || decide (65 ≤ s.cfg.dlen.toNat))

/-- The cause of ERR_KLEN, beside a legal CFG.DLEN (R401). -/
def klenFails (i : Instr) (s : State) : Bool := readsCfg i && decide (65 ≤ s.cfg.klen.toNat)

/-- The cause of ERR_LEN (R401, R304). -/
def lenFails (i : Instr) (s : State) : Bool :=
  match i.fields with
  | (.pad, .blake2b, n) => decide (128 < n)
  | (.final, .blake2b, n) => decide (128 < n) || (n == 0 && (s.t != 0 || s.ctx.klen != 0))
  | (.pad, a, n) | (.final, a, n) => decide (blockSize a ≤ n)
  | (.nop, _, _) | (.init, _, _) | (.compress, _, _) | (.serialize, _, _) | (.encodeDigest, _, _)
  | (.hash, _, _) | (.sreset, _, _) => false

/-- The cause of ERR_MLEN (R401). -/
def mlenFails (i : Instr) (s : State) : Bool :=
  i.fields.1 == .hash && decide (s.msgcap.toNat < s.mlen.toNat)

/-- The code of a legal command: the first check of R402 that fails, else OK. -/
def expectedCode (i : Instr) (s : State) : Code :=
  if seqFails i s then .errSeq
  else if dlenFails i s then .errDlen
  else if klenFails i s then .errKlen
  else if lenFails i s then .errLen
  else if mlenFails i s then .errMlen
  else .ok

end Sys2Proof.Machine
end

