-- ==== Sys2Proof/Certificates/Slice0/Obligations.lean ====
section
/-! DEFINITION. The statements for the provers, from the numbered rules of spec/. Where a clause rests on
a choice of the model, the docstring names the log entry of notes/assumptions/. -/

open Sys2Proof Sys2Proof.Machine

/-! ### Encoding (spec/30_encoding.md) -/

/-- Decoding the word the assembler writes for a well-formed command gives the command back (R98, R101). -/
def Obligations.DecodeAfterEncode : Prop := ∀ i : Instr, i.WellFormed → decode (encode i) = .ok i

/-- Every word that decodes is the word the assembler writes for what it decodes to (R98, R101). -/
def Obligations.EncodeAfterDecode : Prop :=
  ∀ (c : BitVec 32) (i : Instr), decode c = .ok i → i.WellFormed ∧ encode i = c

/-- The decoder rejects exactly the words that meet one of the five conditions of R97, and the engine
completes such a word with ERR_ILLEGAL and no other effect. PEND after the completion is free (log
entry 5). -/
def Obligations.IllegalWordsRejected : Prop :=
  (∀ c : BitVec 32, (∃ r, decode c = .error r) ↔ illegalWord c) ∧
  ∀ s : State, s.busy = true → illegalWord s.pend →
    engineTurn s = .next
      { s with
        code := .errIllegal
        busy := false
        pend := Config.freePend s.draws
        draws := s.draws + 1 }

/-- The opcode table agrees with the decoder, row by row and word by word (R99). -/
def Obligations.OpcodeTableAgrees : Prop :=
  opcodeTable.length = 45 ∧
  (∀ r ∈ opcodeTable,
    r.mask = (if r.op = .pad ∨ r.op = .final then 0xFFFF00FF else 0xFFFFFFFF) ∧
    ∀ c : BitVec 32, c &&& r.mask = r.pattern ↔
      ∃ i, decode c = .ok i ∧ i.fields.1 = r.op ∧ i.fields.2.1 = r.alg) ∧
  opcodeTable.Pairwise (fun r q => ∀ c : BitVec 32, ¬(c &&& r.mask = r.pattern ∧ c &&& q.mask = q.pattern)) ∧
  ∀ c : BitVec 32, (∃ e, decode c = .error e) ↔ ∀ r ∈ opcodeTable, c &&& r.mask ≠ r.pattern

/-- The words of R100, written out, decode to the commands they stand for. -/
def Obligations.OpcodeMapWords : Prop :=
  (decode 0x00000000 = .ok .nop ∧ decode 0x00000006 = .ok .encodeDigest ∧
    decode 0x0000000F = .ok .sreset) ∧
  (decode 0x01 = .ok .initMd4 ∧ decode 0x11 = .ok .initMd5 ∧ decode 0x21 = .ok .initSha1 ∧
    decode 0x31 = .ok .initSha256 ∧ decode 0x41 = .ok .initSha512 ∧
    decode 0x51 = .ok .initRipemd160 ∧ decode 0x61 = .ok .initBlake2b) ∧
  (decode 0x02 = .ok .compressMd4 ∧ decode 0x12 = .ok .compressMd5 ∧ decode 0x22 = .ok .compressSha1 ∧
    decode 0x32 = .ok .compressSha256 ∧ decode 0x42 = .ok .compressSha512 ∧
    decode 0x52 = .ok .compressRipemd160 ∧ decode 0x62 = .ok .compressBlake2b) ∧
  (∀ n : Fin 256,
    decode (BitVec.ofNat 32 (0x03 + 256 * n)) = .ok (.padMd4 n) ∧
    decode (BitVec.ofNat 32 (0x13 + 256 * n)) = .ok (.padMd5 n) ∧
    decode (BitVec.ofNat 32 (0x23 + 256 * n)) = .ok (.padSha1 n) ∧
    decode (BitVec.ofNat 32 (0x33 + 256 * n)) = .ok (.padSha256 n) ∧
    decode (BitVec.ofNat 32 (0x43 + 256 * n)) = .ok (.padSha512 n) ∧
    decode (BitVec.ofNat 32 (0x53 + 256 * n)) = .ok (.padRipemd160 n) ∧
    decode (BitVec.ofNat 32 (0x63 + 256 * n)) = .ok (.padBlake2b n)) ∧
  (∀ n : Fin 256,
    decode (BitVec.ofNat 32 (0x04 + 256 * n)) = .ok (.finalMd4 n) ∧
    decode (BitVec.ofNat 32 (0x14 + 256 * n)) = .ok (.finalMd5 n) ∧
    decode (BitVec.ofNat 32 (0x24 + 256 * n)) = .ok (.finalSha1 n) ∧
    decode (BitVec.ofNat 32 (0x34 + 256 * n)) = .ok (.finalSha256 n) ∧
    decode (BitVec.ofNat 32 (0x44 + 256 * n)) = .ok (.finalSha512 n) ∧
    decode (BitVec.ofNat 32 (0x54 + 256 * n)) = .ok (.finalRipemd160 n) ∧
    decode (BitVec.ofNat 32 (0x64 + 256 * n)) = .ok (.finalBlake2b n)) ∧
  (decode 0x05 = .ok .serializeMd4 ∧ decode 0x15 = .ok .serializeMd5 ∧
    decode 0x25 = .ok .serializeSha1 ∧ decode 0x35 = .ok .serializeSha256 ∧
    decode 0x45 = .ok .serializeSha512 ∧ decode 0x55 = .ok .serializeRipemd160 ∧
    decode 0x65 = .ok .serializeBlake2b) ∧
  (decode 0x07 = .ok .hashMd4 ∧ decode 0x17 = .ok .hashMd5 ∧ decode 0x27 = .ok .hashSha1 ∧
    decode 0x37 = .ok .hashSha256 ∧ decode 0x47 = .ok .hashSha512 ∧
    decode 0x57 = .ok .hashRipemd160 ∧ decode 0x67 = .ok .hashBlake2b)

/-! ### The step (spec/46_control.md section 1, spec/20_memory.md section 6) -/

/-- With a command pending and the engine to move, a step runs the decoded command, then BUSY falls (R360).
With nothing scheduled the engine moves (log entry 16). PEND afterwards is free (log entry 5). -/
def Obligations.StepRunsDecodedCommand : Prop :=
  ∀ (s : State) (i : Instr), s.busy = true → decode s.pend = .ok i →
    (s.schedule = [] → ∃ t, exec i s = .next t ∧
      step s = .next
        { t with busy := false, pend := Config.freePend t.draws, draws := t.draws + 1 }) ∧
    (∀ rest, s.schedule = .engine :: rest → ∃ t, exec i { s with schedule := rest } = .next t ∧
      step s = .next
        { t with busy := false, pend := Config.freePend t.draws, draws := t.draws + 1 })

/-- With BUSY = 0 the engine's step is not enabled: nothing changes but the schedule (R360; log entries 14
and 15). -/
def Obligations.IdleEngineKeepsState : Prop :=
  ∀ s : State, s.busy = false →
    (s.schedule = [] → step s = .next s) ∧
    (∀ rest, s.schedule = .engine :: rest → step s = .next { s with schedule := rest })

/-- A host write of CMD issues the command; CMD reads 0; a write while BUSY is refused (R35). What the host
reads is recorded in `seen` (log entry 17). -/
def Obligations.CommandWriteIssues : Prop :=
  ∀ (s : State) (c : Word32),
    (s.busy = false →
      hostAccess (.write 32 0x000 c) s = .next { s with pend := c, busy := true } ∧
      hostAccess (.read 32 0x000) s = .next { s with seen := 0 :: s.seen }) ∧
    (s.busy = true → hostAccess (.write 32 0x000 c) s = .refused .accessWhileBusy)

/-- Every command answers a next state, and the first check that fails decides its code: at decode, then in
the order of R402, with the causes of R401. -/
def Obligations.FirstFailingCheckDecides : Prop :=
  (∀ (i : Instr) (s : State), ∃ t, exec i s = .next t ∧ t.code = expectedCode i s) ∧
  ∀ s : State, s.busy = true → ∃ t, engineTurn s = .next t ∧
    ((∃ r, decode s.pend = .error r) → t.code = .errIllegal) ∧
    (∀ i, decode s.pend = .ok i → t.code = expectedCode i s)

/-- An error is atomic: CODE alone changes, or for a configuration error CODE, PHASE, DIGEST and HEX; and
BUSY falls (R403, R405). -/
def Obligations.ErrorsAreAtomic : Prop :=
  (∀ (i : Instr) (s t : State), exec i s = .next t → t.code ≠ .ok →
    t =
      if t.code = .errDlen ∨ t.code = .errKlen then
        { s with
          code := t.code
          phase := .idle
          digest := Vector.replicate 64 0
          diglen := 0
          hex := Vector.replicate 128 0
          hexlen := 0 }
      else { s with code := t.code }) ∧
  ∀ s t : State, s.busy = true → engineTurn s = .next t → t.busy = false

/-- Whatever command is pending, after any number of host reads of STATUS the engine's step completes it,
and each of those reads saw the STATUS of the pending state (R458; the order is data, log entry 1). -/
def Obligations.PendingCommandCompletes : Prop :=
  ∀ (k : Nat) (s : State) (rest : List Event), s.busy = true →
    s.schedule = List.replicate k (.access (.read 32 0x004)) ++ .engine :: rest →
    ∃ t, Sys2Proof.core.run (k + 1) s = .next t ∧ t.busy = false ∧ t.schedule = rest ∧
      t.seen = List.replicate k (statusWord s) ++ s.seen

/-! ### NOP and SRESET (spec/46_control.md section 2) -/

/-- NOP is the word 0, and any other word with OP = 0 is illegal; NOP writes CODE alone (R363). -/
def Obligations.NopWritesCode : Prop :=
  (∀ s : State, exec .nop s = .next { s with code := .ok }) ∧ decode 0x00000000 = .ok .nop ∧
  ∀ c : BitVec 32, c.extractLsb' 0 4 = 0 → c ≠ 0 → ∃ r, decode c = .error r

/-- SRESET is the word 0xF, and any other word with OP = 15 is illegal. In every phase it sets every register and
buffer to 0, PHASE to IDLE and CODE to OK, and leaves message memory and MSGCAP unchanged (R362). -/
def Obligations.SresetClearsRegisters : Prop :=
  (decode 0x0000000F = .ok .sreset ∧
    ∀ c : BitVec 32, c.extractLsb' 0 4 = 15 → c ≠ 0x0000000F → ∃ r, decode c = .error r) ∧
  ∀ s : State,
    exec .sreset s = .next
      { s with
        h := Vector.replicate 8 0
        t := 0
        blk := Vector.replicate 128 0
        key := Vector.replicate 64 0
        padbuf := Vector.replicate 256 0
        padcnt := 0
        digest := Vector.replicate 64 0
        diglen := 0
        hex := Vector.replicate 128 0
        hexlen := 0
        cfg := ⟨0, 0⟩
        mlen := 0
        ctx := ⟨.md4, 0, 0⟩
        phase := .idle
        code := .ok }

/-! ### INIT (R364, R300) -/

/-- The six MD-family INITs, in every phase: the state words of R151, R201, R205, R210 and R261, the rest of H
0, T 0, a fresh context, PADBUF, DIGEST and HEX cleared, PHASE ACTIVE (R364). -/
def Obligations.InitMdOpensContext : Prop :=
  ∀ s : State,
    let opened (a : Alg) (h : RegFile) : State :=
      { s with
        h := h
        t := 0
        ctx := ⟨a, 0, 0⟩
        padbuf := Vector.replicate 256 0
        padcnt := 0
        digest := Vector.replicate 64 0
        diglen := 0
        hex := Vector.replicate 128 0
        hexlen := 0
        phase := .active
        code := .ok }
    exec .initMd4 s = .next (opened .md4
      #v[0x67452301, 0xEFCDAB89, 0x98BADCFE, 0x10325476, 0, 0, 0, 0]) ∧
    exec .initMd5 s = .next (opened .md5
      #v[0x67452301, 0xEFCDAB89, 0x98BADCFE, 0x10325476, 0, 0, 0, 0]) ∧
    exec .initSha1 s = .next (opened .sha1
      #v[0x67452301, 0xEFCDAB89, 0x98BADCFE, 0x10325476, 0xC3D2E1F0, 0, 0, 0]) ∧
    exec .initSha256 s = .next (opened .sha256
      #v[0x6a09e667, 0xbb67ae85, 0x3c6ef372, 0xa54ff53a, 0x510e527f, 0x9b05688c, 0x1f83d9ab,
        0x5be0cd19]) ∧
    exec .initSha512 s = .next (opened .sha512
      #v[0x6a09e667f3bcc908, 0xbb67ae8584caa73b, 0x3c6ef372fe94f82b, 0xa54ff53a5f1d36f1,
        0x510e527fade682d1, 0x9b05688c2b3e6c1f, 0x1f83d9abfb41bd6b, 0x5be0cd19137e2179]) ∧
    exec .initRipemd160 s = .next (opened .ripemd160
      #v[0x67452301, 0xEFCDAB89, 0x98BADCFE, 0x10325476, 0xC3D2E1F0, 0, 0, 0])

/-- INIT.BLAKE2B, the word 0x61, in every phase: the configuration checks, then the IV with word 0 xored with the parameter
word, and a fresh context that holds CFG's fields (R300). -/
def Obligations.InitBlakeChecksThenOpens : Prop :=
  (∀ c : BitVec 32, decode c = .ok .initBlake2b ↔ c = 0x00000061) ∧
  ∀ s : State,
    ((1 ≤ s.cfg.dlen.toNat ∧ s.cfg.dlen.toNat ≤ 64) → s.cfg.klen.toNat ≤ 64 →
      exec .initBlake2b s = .next
        { s with
          h := #v[0x6a09e667f3bcc908 ^^^
              BitVec.ofNat 64 (0x01010000 + 256 * s.cfg.klen.toNat + s.cfg.dlen.toNat),
            0xbb67ae8584caa73b, 0x3c6ef372fe94f82b, 0xa54ff53a5f1d36f1, 0x510e527fade682d1,
            0x9b05688c2b3e6c1f, 0x1f83d9abfb41bd6b, 0x5be0cd19137e2179]
          t := 0
          ctx := ⟨.blake2b, s.cfg.dlen, s.cfg.klen⟩
          padbuf := Vector.replicate 256 0
          padcnt := 0
          digest := Vector.replicate 64 0
          diglen := 0
          hex := Vector.replicate 128 0
          hexlen := 0
          phase := .active
          code := .ok }) ∧
    ((s.cfg.dlen.toNat = 0 ∨ 65 ≤ s.cfg.dlen.toNat) →
      exec .initBlake2b s = .next
        { s with
          code := .errDlen
          phase := .idle
          digest := Vector.replicate 64 0
          diglen := 0
          hex := Vector.replicate 128 0
          hexlen := 0 }) ∧
    ((1 ≤ s.cfg.dlen.toNat ∧ s.cfg.dlen.toNat ≤ 64) → 65 ≤ s.cfg.klen.toNat →
      exec .initBlake2b s = .next
        { s with
          code := .errKlen
          phase := .idle
          digest := Vector.replicate 64 0
          diglen := 0
          hex := Vector.replicate 128 0
          hexlen := 0 })

/-! ### COMPRESS (R365, R302) -/

/-- The six MD-family COMPRESS commands: in an ACTIVE context of the algorithm, H gets the compression of the
state words with the words of BLK[0..BS), and T grows by BS; otherwise ERR_SEQ (R365, R21; log entry 7). -/
def Obligations.CompressMdUpdatesState : Prop :=
  ∀ s : State,
    let block (n : Nat) : List Byte := s.blk.toList.take n
    let word (i : Fin 8) : Word32 := (s.h[i]).setWidth 32
    let quad : Quad := ⟨word 0, word 1, word 2, word 3⟩
    let quint : Quint := ⟨word 0, word 1, word 2, word 3, word 4⟩
    let oct : Oct 32 := ⟨word 0, word 1, word 2, word 3, word 4, word 5, word 6, word 7⟩
    let after (h : RegFile) (n : Word128) : Result :=
      .next { s with h := h, t := s.t + n, code := .ok }
    let ready (a : Alg) : Prop := s.phase = .active ∧ s.ctx.alg = a
    (ready .md4 → exec .compressMd4 s =
      after (regsOf32 (md4Compress quad (wordsLe 32 4 (block 64))).words) 64) ∧
    (ready .md5 → exec .compressMd5 s =
      after (regsOf32 (md5Compress quad (wordsLe 32 4 (block 64))).words) 64) ∧
    (ready .sha1 → exec .compressSha1 s =
      after (regsOf32 (sha1Compress quint (wordsBe 32 4 (block 64))).words) 64) ∧
    (ready .sha256 → exec .compressSha256 s =
      after (regsOf32 (sha256Compress oct (wordsBe 32 4 (block 64))).words) 64) ∧
    (ready .sha512 → exec .compressSha512 s =
      after (regsOf64 (sha512Compress ⟨s.h[0], s.h[1], s.h[2], s.h[3], s.h[4], s.h[5], s.h[6], s.h[7]⟩
        (wordsBe 64 8 (block 128))).words) 128) ∧
    (ready .ripemd160 → exec .compressRipemd160 s =
      after (regsOf32 (rmdCompress quint (wordsLe 32 4 (block 64))).words) 64) ∧
    (∀ a ∈ mdFamily, ¬ready a → exec (compressOf a) s = .next { s with code := .errSeq })

/-- COMPRESS.BLAKE2B, the word 0x62: T counts the block before it is compressed, the final flag is off; ERR_SEQ unless a BLAKE2b
context is ACTIVE (R302). -/
def Obligations.CompressBlakeUpdatesState : Prop :=
  (∀ c : BitVec 32, decode c = .ok .compressBlake2b ↔ c = 0x00000062) ∧
  ∀ s : State,
    (s.phase = .active → s.ctx.alg = .blake2b →
      exec .compressBlake2b s = .next
        { s with
          h := blakeCompress s.h (wordsLe 64 8 s.blk.toList) (s.t + 128) false
          t := s.t + 128
          code := .ok }) ∧
    (¬(s.phase = .active ∧ s.ctx.alg = .blake2b) →
      exec .compressBlake2b s = .next { s with code := .errSeq })

/-! ### PAD (spec/40_preprocessor.md section 2) -/

/-- The six MD-family PADs: PADBUF gets the padding of the tail BLK[0..n) for a message of T + n bytes, zero
filled, PADCNT its block count, and nothing else but CODE changes; ERR_SEQ before ERR_LEN (R128). -/
def Obligations.PadMdWritesPadding : Prop :=
  ∀ (s : State), ∀ a ∈ mdFamily, ∀ n : Nat,
    (s.phase = .active → s.ctx.alg = a → n < blockSize a →
      exec (padOf a n) s = .next
        { s with
          padbuf := fill 256
            (mdPad a (s.blk.toList.take n) (s.t + BitVec.ofNat 128 n : Word128).toNat)
          padcnt := if n + 1 + lengthField a ≤ blockSize a then 1 else 2
          code := .ok }) ∧
    (s.phase = .active → s.ctx.alg = a → blockSize a ≤ n →
      exec (padOf a n) s = .next { s with code := .errLen }) ∧
    (¬(s.phase = .active ∧ s.ctx.alg = a) → exec (padOf a n) s = .next { s with code := .errSeq })

/-- PAD.BLAKE2B n, the word 0x63 + 256n: the tail BLK[0..n) and zeros in PADBUF, PADCNT 1, no guard on n = 0; ERR_SEQ before ERR_LEN
(R136). -/
def Obligations.PadBlakeWritesPadding : Prop :=
  (∀ (c : BitVec 32) (n : Fin 256), decode c = .ok (.padBlake2b n) ↔ c = BitVec.ofNat 32 (0x63 + 256 * n)) ∧
  ∀ (s : State) (n : Nat),
    (s.phase = .active → s.ctx.alg = .blake2b → n ≤ 128 →
      exec (.padBlake2b n) s = .next
        { s with
          padbuf := fill 256 (s.blk.toList.take n)
          padcnt := 1
          code := .ok }) ∧
    (s.phase = .active → s.ctx.alg = .blake2b → 128 < n →
      exec (.padBlake2b n) s = .next { s with code := .errLen }) ∧
    (¬(s.phase = .active ∧ s.ctx.alg = .blake2b) →
      exec (.padBlake2b n) s = .next { s with code := .errSeq })

/-! ### FINAL (R366, R303, R304) -/

/-- The six MD-family FINALs: the padding of the tail is compressed as one block or two, T counts the tail, PADBUF,
DIGEST and their counts are written, HEX is cleared, PHASE becomes DONE; ERR_SEQ before ERR_LEN (R366). -/
def Obligations.FinalMdClosesContext : Prop :=
  ∀ (s : State), ∀ e ∈ mdEngines, ∀ n : Nat,
    let p := mdPad e.alg (s.blk.toList.take n) (s.t + BitVec.ofNat 128 n : Word128).toNat
    let h :=
      if n + 1 + lengthField e.alg ≤ blockSize e.alg then e.compress s.h p
      else e.compress (e.compress s.h (p.take (blockSize e.alg))) (p.drop (blockSize e.alg))
    (s.phase = .active → s.ctx.alg = e.alg → n < blockSize e.alg →
      exec (finalOf e.alg n) s = .next
        { s with
          h := h
          t := s.t + BitVec.ofNat 128 n
          padbuf := fill 256 p
          padcnt := if n + 1 + lengthField e.alg ≤ blockSize e.alg then 1 else 2
          digest := fill 64 (serialize ⟨e.alg, 0, 0⟩ h)
          diglen := BitVec.ofNat 7 (digestLength ⟨e.alg, 0, 0⟩)
          hex := Vector.replicate 128 0
          hexlen := 0
          phase := .done
          code := .ok }) ∧
    (s.phase = .active → s.ctx.alg = e.alg → blockSize e.alg ≤ n →
      exec (finalOf e.alg n) s = .next { s with code := .errLen }) ∧
    (¬(s.phase = .active ∧ s.ctx.alg = e.alg) →
      exec (finalOf e.alg n) s = .next { s with code := .errSeq })

/-- FINAL.BLAKE2B n, the word 0x64 + 256n: the zero padded tail is compressed with the final flag and T counting the real bytes, the digest
is the state words little-endian cut to CTX.DLEN bytes; ERR_SEQ, then ERR_LEN for n > 128 or an empty last block
that is not the whole input (R303, R304). The premise on CTX is part of the invariant `ContextInv`. -/
def Obligations.FinalBlakeClosesContext : Prop :=
  (∀ (c : BitVec 32) (n : Fin 256), decode c = .ok (.finalBlake2b n) ↔ c = BitVec.ofNat 32 (0x64 + 256 * n)) ∧
  ∀ (s : State) (n : Nat),
    let p := s.blk.toList.take n ++ List.replicate (128 - n) 0
    let t : Word128 := s.t + BitVec.ofNat 128 n
    let h := blakeCompress s.h (wordsLe 64 8 p) t true
    (ctxLegal s.ctx → s.phase = .active → s.ctx.alg = .blake2b → n ≤ 128 →
      (n = 0 → s.t = 0 ∧ s.ctx.klen = 0) →
      exec (.finalBlake2b n) s = .next
        { s with
          h := h
          t := t
          padbuf := fill 256 p
          padcnt := 1
          digest := fill 64 ((h.toList.flatMap fun w => toLe w.toNat 8).take s.ctx.dlen.toNat)
          diglen := s.ctx.dlen.setWidth 7
          hex := Vector.replicate 128 0
          hexlen := 0
          phase := .done
          code := .ok }) ∧
    (s.phase = .active → s.ctx.alg = .blake2b → (128 < n ∨ (n = 0 ∧ (s.t ≠ 0 ∨ s.ctx.klen ≠ 0))) →
      exec (.finalBlake2b n) s = .next { s with code := .errLen }) ∧
    (¬(s.phase = .active ∧ s.ctx.alg = .blake2b) →
      exec (.finalBlake2b n) s = .next { s with code := .errSeq })

/-! ### SERIALIZE and ENCODE (spec/45_digest_encoder.md) -/

/-- The seven SERIALIZE commands: in an ACTIVE or DONE context of the algorithm, DIGEST gets the serialized state
words, DIGLEN their number, HEX is cleared and nothing else but CODE changes; otherwise ERR_SEQ (R333). -/
def Obligations.SerializeWritesDigest : Prop :=
  ∀ (s : State) (a : Alg),
    let d := serialize s.ctx s.h
    (s.phase = .active ∨ s.phase = .done → s.ctx.alg = a →
      exec (serializeOf a) s = .next
        { s with
          digest := fill 64 d
          diglen := BitVec.ofNat 7 d.length
          hex := Vector.replicate 128 0
          hexlen := 0
          code := .ok }) ∧
    (¬((s.phase = .active ∨ s.phase = .done) ∧ s.ctx.alg = a) →
      exec (serializeOf a) s = .next { s with code := .errSeq })

/-- ENCODE, the word 6: HEX gets the rendering of the digest, HEXLEN twice its length; ERR_SEQ with no digest (R341). DIGLEN is
at most 64 by the invariant `ContextInv`. -/
def Obligations.EncodeRendersDigest : Prop :=
  (∀ c : BitVec 32, decode c = .ok .encodeDigest ↔ c = 0x00000006) ∧
  ∀ s : State,
    (s.diglen ≠ 0 → s.diglen.toNat ≤ 64 →
      exec .encodeDigest s = .next
        { s with
          hex := fill 128 (hexText (s.digest.toList.take s.diglen.toNat))
          hexlen := BitVec.ofNat 8 (2 * s.diglen.toNat)
          code := .ok }) ∧
    (s.diglen = 0 → exec .encodeDigest s = .next { s with code := .errSeq })

/-! ### HASH (spec/46_control.md section 4) -/

/-- The six MD-family HASHes, in every phase: with MLEN at most MSG_CAP the whole padded message is compressed from
the initial state and every result register is written; else ERR_MLEN alone (R370, R371). -/
def Obligations.HashMdHashesMessage : Prop :=
  ∀ (s : State), ∀ e ∈ mdEngines,
    let m := (List.range s.mlen.toNat).map (msgByte s)
    let q := m.length / blockSize e.alg
    let p := mdPad e.alg (m.drop (q * blockSize e.alg)) m.length
    let h := absorbAll e e.iv (padMessage e.alg m)
    let d := serialize ⟨e.alg, 0, 0⟩ h
    (s.mlen.toNat ≤ s.msgcap.toNat →
      exec (hashOf e.alg) s = .next
        { s with
          h := h
          t := BitVec.ofNat 128 s.mlen.toNat
          ctx := ⟨e.alg, 0, 0⟩
          padbuf := fill 256 p
          padcnt := BitVec.ofNat 2 (p.length / blockSize e.alg)
          digest := fill 64 d
          diglen := BitVec.ofNat 7 (digestLength ⟨e.alg, 0, 0⟩)
          hex := fill 128 (hexText d)
          hexlen := BitVec.ofNat 8 (2 * digestLength ⟨e.alg, 0, 0⟩)
          phase := .done
          code := .ok }) ∧
    (s.msgcap.toNat < s.mlen.toNat → exec (hashOf e.alg) s = .next { s with code := .errMlen })

/-- HASH.BLAKE2B with a legal configuration and MLEN at most MSG_CAP: the key block and the message are compressed
block by block, the last block with the final flag, and every result register is written; T ends as the number of
bytes; ERR_DLEN, ERR_KLEN, then ERR_MLEN (R370, R372). -/
def Obligations.HashBlakeHashesMessage : Prop :=
  ∀ s : State,
    let dl := s.cfg.dlen.toNat
    let kl := s.cfg.klen.toNat
    let m := (List.range s.mlen.toNat).map (msgByte s)
    let data := (if kl = 0 then [] else s.key.toList.take kl ++ List.replicate (128 - kl) 0) ++ m
    let dd := max 1 ((data.length + 127) / 128)
    let p := data.drop (128 * (dd - 1)) ++ List.replicate (128 * dd - data.length) 0
    let h := (blakeFinish (blakeAbsorb (dd - 1) (blakeInit s.cfg.dlen s.cfg.klen, 0) data)
      (data.drop (128 * (dd - 1)))).1
    let d := (h.toList.flatMap fun w => toLe w.toNat 8).take dl
    let failed (c : Code) : State :=
      { s with
        code := c
        phase := .idle
        digest := Vector.replicate 64 0
        diglen := 0
        hex := Vector.replicate 128 0
        hexlen := 0 }
    ((1 ≤ dl ∧ dl ≤ 64) → kl ≤ 64 → s.mlen.toNat ≤ s.msgcap.toNat →
      exec .hashBlake2b s = .next
        { s with
          h := h
          t := BitVec.ofNat 128 data.length
          ctx := ⟨.blake2b, s.cfg.dlen, s.cfg.klen⟩
          padbuf := fill 256 p
          padcnt := 1
          digest := fill 64 d
          diglen := BitVec.ofNat 7 dl
          hex := fill 128 (hexText d)
          hexlen := BitVec.ofNat 8 (2 * dl)
          phase := .done
          code := .ok }) ∧
    ((dl = 0 ∨ 65 ≤ dl) → exec .hashBlake2b s = .next (failed .errDlen)) ∧
    ((1 ≤ dl ∧ dl ≤ 64) → 65 ≤ kl → exec .hashBlake2b s = .next (failed .errKlen)) ∧
    ((1 ≤ dl ∧ dl ≤ 64) → kl ≤ 64 → s.msgcap.toNat < s.mlen.toNat →
      exec .hashBlake2b s = .next { s with code := .errMlen })

/-! ### What commands leave unchanged, and phases (spec/10_state.md) -/

/-- The frame of every command, by the columns of R44: a register that the command's operation does not write keeps
its value, and no command changes message memory, MSGCAP, KEY, BLK, CFG or MLEN but SRESET. -/
def Obligations.CommandFrame : Prop :=
  ∀ (i : Instr) (s t : State), exec i s = .next t →
    (i.fields.1 ∈ [Op.nop, .pad, .serialize, .encodeDigest] → t.h = s.h ∧ t.t = s.t) ∧
    (i.fields.1 ∈ [Op.nop, .compress, .serialize, .encodeDigest] →
      t.padbuf = s.padbuf ∧ t.padcnt = s.padcnt) ∧
    (i.fields.1 ∈ [Op.nop, .compress, .pad, .encodeDigest] →
      t.digest = s.digest ∧ t.diglen = s.diglen) ∧
    (i.fields.1 ∈ [Op.nop, .compress, .pad] → t.hex = s.hex ∧ t.hexlen = s.hexlen) ∧
    (i.fields.1 ∈ [Op.nop, .compress, .pad, .final, .serialize, .encodeDigest] → t.ctx = s.ctx) ∧
    (i.fields.1 ∈ [Op.nop, .compress, .pad, .serialize, .encodeDigest] → t.phase = s.phase) ∧
    (i ≠ .sreset → t.blk = s.blk ∧ t.key = s.key ∧ t.cfg = s.cfg ∧ t.mlen = s.mlen) ∧
    (∀ a : Nat, msgByte t a = msgByte s a) ∧
    t.msgcap = s.msgcap ∧ t.busy = s.busy ∧ t.pend = s.pend ∧ t.msg = s.msg ∧
    t.powerOns = s.powerOns ∧ t.draws = s.draws ∧ t.schedule = s.schedule ∧ t.seen = s.seen

/-- The phase after every command, by the table of R33. -/
def Obligations.PhaseTransitions : Prop :=
  ∀ (i : Instr) (s t : State), exec i s = .next t →
    t.phase = phaseAfter i.fields.1 t.code s.phase ∧
    (t.code = .ok → i.fields.1 ∈ [Op.compress, .pad, .final] → s.phase = .active) ∧
    (t.code = .ok → i.fields.1 = .serialize → s.phase = .active ∨ s.phase = .done)

/-- After INIT, COMPRESS, FINAL or HASH completes, the registers past NW(a) are 0, and so are the high halves of a
32-bit algorithm's (R21; log entry 7). -/
def Obligations.UnusedRegistersZero : Prop :=
  ∀ (i : Instr) (s t : State), exec i s = .next t → t.code = .ok →
    i.fields.1 ∈ [Op.init, .compress, .final, .hash] →
    t.ctx.alg = i.fields.2.1 ∧
    ∀ k : Fin 8,
      (stateWords i.fields.2.1 ≤ k.val → t.h[k] = 0) ∧
      (wordBytes i.fields.2.1 = 4 → (t.h[k]).extractLsb' 32 32 = 0)

/-! ### The padding and encoding functions -/

/-- The zero-fill count is the least that completes a block, with the worked values of R122. -/
def Obligations.ZeroFillIsLeast : Prop :=
  (∀ a ∈ mdFamily, ∀ n : Nat, n < blockSize a →
    zeroFill a n < blockSize a ∧ (n + 1 + zeroFill a n + lengthField a) % blockSize a = 0 ∧
    ∀ z, z < zeroFill a n → (n + 1 + z + lengthField a) % blockSize a ≠ 0) ∧
  (∀ a ∈ mdFamily, blockSize a = 64 →
    zeroFill a 0 = 55 ∧ zeroFill a 55 = 0 ∧ zeroFill a 56 = 63 ∧ zeroFill a 63 = 56) ∧
  zeroFill .sha512 111 = 0 ∧ zeroFill .sha512 112 = 127

/-- The padding of a tail is one block if the tail, the terminator and the length field fit in one, else two; it is
never more than 256 bytes (R124). -/
def Obligations.PaddingSize : Prop :=
  ∀ a ∈ mdFamily, ∀ (tail : List Byte) (total : Nat), tail.length < blockSize a →
    (mdPad a tail total).length = tail.length + 1 + zeroFill a tail.length + lengthField a ∧
    (mdPad a tail total).length =
      (if tail.length + 1 + lengthField a ≤ blockSize a then blockSize a else 2 * blockSize a) ∧
    (mdPad a tail total).length ≤ 256

/-- The padding holds the tail, the byte 0x80, zeros, and the bit length reduced to the width of the length field, in
the algorithm's byte order: little-endian for MD4, MD5 and RIPEMD-160, big-endian for SHA (R121, R123). -/
def Obligations.PaddingLayout : Prop :=
  ∀ a ∈ mdFamily, ∀ (tail : List Byte) (total : Nat), tail.length < blockSize a →
    let p := mdPad a tail total
    let field := p.drop (p.length - lengthField a)
    p.take tail.length = tail ∧ p[tail.length]? = some 0x80 ∧
    (∀ j, tail.length < j → j < p.length - lengthField a → p[j]? = some 0) ∧
    (lengthField a = if a = .sha512 then 16 else 8) ∧
    (a ∈ [Alg.md4, .md5, .ripemd160] → fromLe field = 8 * total % 2 ^ 64) ∧
    (a ∈ [Alg.sha1, .sha256] → fromBe field = 8 * total % 2 ^ 64) ∧
    (a = .sha512 → fromBe field = 8 * total % 2 ^ 128)

/-- Whole-message padding is the message's full blocks and the padding of the rest; it starts with the message, is a
whole number of blocks, and is at least as long as the message, the terminator and the length field (R126). -/
def Obligations.WholeMessagePadding : Prop :=
  ∀ a ∈ mdFamily, ∀ m : List Byte,
    let q := m.length / blockSize a
    padMessage a m = m.take (q * blockSize a) ++ mdPad a (m.drop (q * blockSize a)) m.length ∧
    m <+: padMessage a m ∧ (padMessage a m).length % blockSize a = 0 ∧
    m.length + 1 + lengthField a ≤ (padMessage a m).length

/-- BLAKE2b's padding is the tail and zeros, always one block (R127). -/
def Obligations.BlakePaddingIsZeros : Prop :=
  ∀ tail : List Byte, tail.length ≤ 128 →
    (blakePad tail).length = 128 ∧ (blakePad tail).take tail.length = tail ∧
    ∀ j, tail.length ≤ j → j < 128 → (blakePad tail)[j]? = some 0

/-- Byte j of the serialized state: byte j mod WB of word j / WB, counted from the least significant byte for a
little-endian algorithm and from the most significant for a big-endian one; and the digest lengths (R331). BLAKE2b's
length is min(CTX.DLEN, 64), the model's choice for the contexts with CTX.DLEN above 64, which R331 does not speak of
(log entry 11); for every legal context it is CTX.DLEN. -/
def Obligations.SerializedBytes : Prop :=
  ∀ (c : Ctx) (h : RegFile),
    let d := serialize c h
    let bytes := stateWords c.alg * wordBytes c.alg
    d.length =
      (match c.alg with
      | .md4 | .md5 => 16
      | .sha1 | .ripemd160 => 20
      | .sha256 => 32
      | .sha512 => 64
      | .blake2b => min c.dlen.toNat 64) ∧
    ∀ j : Nat, j < d.length → j < bytes ∧ ∀ k : Fin 8, k.val = j / wordBytes c.alg →
      (c.alg ∈ [Alg.md4, .md5, .ripemd160, .blake2b] →
        d[j]? = some ((h[k]).extractLsb' (8 * (j % wordBytes c.alg)) 8)) ∧
      (c.alg ∈ [Alg.sha1, .sha256, .sha512] →
        d[j]? = some ((h[k]).extractLsb' (8 * (wordBytes c.alg - 1 - j % wordBytes c.alg)) 8))

/-- The rendering has two characters a byte, the high nibble first, from 0123456789abcdef (R332). -/
def Obligations.HexCharacters : Prop :=
  ∀ d : List Byte,
    let alphabet : List Byte :=
      [0x30, 0x31, 0x32, 0x33, 0x34, 0x35, 0x36, 0x37, 0x38, 0x39, 0x61, 0x62, 0x63, 0x64, 0x65, 0x66]
    (hexText d).length = 2 * d.length ∧
    ∀ (j : Nat) (b : Byte), d[j]? = some b →
      (hexText d)[2 * j]? = alphabet[(b >>> 4).toNat]? ∧
      (hexText d)[2 * j + 1]? = alphabet[(b &&& 15).toNat]?

/-- The words of a block, in both byte orders and at both widths (R12, R68). -/
def Obligations.BlockWordOrder : Prop :=
  ∀ b : List Byte, b.length = 64 ∨ b.length = 128 →
    let at' (k : Nat) : Byte := b.getD k 0
    (∀ j, 4 * j + 4 ≤ b.length →
      (wordsLe 32 4 b)[j]? = some (at' (4 * j + 3) ++ at' (4 * j + 2) ++ at' (4 * j + 1) ++ at' (4 * j)) ∧
      (wordsBe 32 4 b)[j]? = some (at' (4 * j) ++ at' (4 * j + 1) ++ at' (4 * j + 2) ++ at' (4 * j + 3))) ∧
    (∀ j, 8 * j + 8 ≤ b.length →
      (wordsLe 64 8 b)[j]? = some
        (at' (8 * j + 7) ++ at' (8 * j + 6) ++ at' (8 * j + 5) ++ at' (8 * j + 4) ++ at' (8 * j + 3) ++
          at' (8 * j + 2) ++ at' (8 * j + 1) ++ at' (8 * j)) ∧
      (wordsBe 64 8 b)[j]? = some
        (at' (8 * j) ++ at' (8 * j + 1) ++ at' (8 * j + 2) ++ at' (8 * j + 3) ++ at' (8 * j + 4) ++
          at' (8 * j + 5) ++ at' (8 * j + 6) ++ at' (8 * j + 7)))

/-- The message schedules of SHA-1, SHA-256 and SHA-512: the block words, then the recurrence (R203, R208, R213). -/
def Obligations.ShaMessageSchedules : Prop :=
  (∀ x : List Word32, x.length = 16 →
    let w (t : Nat) : Word32 := (sha1Schedule x).getD t 0
    (sha1Schedule x).length = 80 ∧ (∀ t, t < 16 → w t = x.getD t 0) ∧
    ∀ t, 16 ≤ t → t < 80 →
      w t = (w (t - 3) ^^^ w (t - 8) ^^^ w (t - 14) ^^^ w (t - 16)).rotateLeft 1) ∧
  (∀ x : List Word32, x.length = 16 →
    let w (t : Nat) : Word32 := (sha256Schedule x).getD t 0
    (sha256Schedule x).length = 64 ∧ (∀ t, t < 16 → w t = x.getD t 0) ∧
    ∀ t, 16 ≤ t → t < 64 →
      w t = smallSigma1_256 (w (t - 2)) + w (t - 7) + smallSigma0_256 (w (t - 15)) + w (t - 16)) ∧
  ∀ x : List Word64, x.length = 16 →
    let w (t : Nat) : Word64 := (sha512Schedule x).getD t 0
    (sha512Schedule x).length = 80 ∧ (∀ t, t < 16 → w t = x.getD t 0) ∧
    ∀ t, 16 ≤ t → t < 80 →
      w t = smallSigma1_512 (w (t - 2)) + w (t - 7) + smallSigma0_512 (w (t - 15)) + w (t - 16)

/-! ### Invariants -/

/-- Both invariants hold after reset. The capacity and an empty message memory are the model's (log entries 2 and
4). -/
def Obligations.ResetMeetsInvariants : Prop := ContextInv State.reset ∧ MemoryInv State.reset

/-- Every step keeps what R21, R26, R27, R28, R31 and R33 say of H, PADBUF, DIGEST, HEX, CTX and PHASE. -/
def Obligations.StepKeepsContextInv : Prop :=
  ∀ s t : State, ContextInv s → step s = .next t → ContextInv t

/-- Every step keeps message memory canonical and inside MSG_CAP, and MSGCAP as it was (R37, R38, R66). -/
def Obligations.StepKeepsMemoryInv : Prop :=
  ∀ s t : State, MemoryInv s → step s = .next t → MemoryInv t ∧ t.msgcap = s.msgcap

/-- In phase DONE, SERIALIZE rewrites the digest with the same bytes (R333); HEX is cleared. The premise is the
invariant `ContextInv`. -/
def Obligations.DoneSerializeKeepsDigest : Prop :=
  ∀ s : State, ContextInv s → s.phase = .done →
    exec (serializeOf s.ctx.alg) s = .next
      { s with hex := Vector.replicate 128 0, hexlen := 0, code := .ok }

/-- The encoder is idempotent: SERIALIZE twice is SERIALIZE once, and ENCODE twice is ENCODE once (R330, R333). -/
def Obligations.EncoderIdempotent : Prop :=
  (∀ (a : Alg) (s t : State), exec (serializeOf a) s = .next t → exec (serializeOf a) t = .next t) ∧
  ∀ s t : State, exec .encodeDigest s = .next t → exec .encodeDigest t = .next t

/-! ### What commands read -/

/-- COMPRESS.a reads BLK[0..BS(a)), PAD and FINAL read BLK[0..n), no other command reads BLK, and none but SRESET
changes it (R24). -/
def Obligations.BlkBytesPastOperandUnread : Prop :=
  ∀ (i : Instr) (s t : State) (b : Buffer 128), i ≠ .sreset →
    b.toList.take (blkRead i) = s.blk.toList.take (blkRead i) → exec i s = .next t →
    t.blk = s.blk ∧ exec i { s with blk := b } = .next { t with blk := b }

/-- KEY is read by HASH.BLAKE2B alone, and only KEY[0..CFG.KLEN), which becomes CTX.KLEN (R25); CFG by INIT.BLAKE2B and
HASH.BLAKE2B alone (R29, R454); MLEN by HASH alone (R30). -/
def Obligations.HostRegistersReadOnlyByTheirCommands : Prop :=
  ∀ (i : Instr) (s t : State), i ≠ .sreset → exec i s = .next t →
    (∀ k : Buffer 64,
      (i = .hashBlake2b → k.toList.take s.cfg.klen.toNat = s.key.toList.take s.cfg.klen.toNat) →
      exec i { s with key := k } = .next { t with key := k }) ∧
    (∀ c : Cfg, i ≠ .initBlake2b → i ≠ .hashBlake2b →
      exec i { s with cfg := c } = .next { t with cfg := c }) ∧
    (∀ m : Word64, i.fields.1 ≠ .hash → exec i { s with mlen := m } = .next { t with mlen := m })

/-- HASH starts a fresh context: its result depends on MLEN, MSG[0..MLEN), MSGCAP and, for BLAKE2b, CFG and KEY, and on
nothing the context before it left (R370, R371). -/
def Obligations.HashIgnoresOldContext : Prop :=
  ∀ (a : Alg) (s s' : State), s'.mlen = s.mlen → s'.msgcap = s.msgcap →
    (∀ x, x < s.mlen.toNat → msgByte s' x = msgByte s x) →
    (a = .blake2b → s'.cfg = s.cfg ∧ s'.key = s.key) →
    ∃ t t', exec (hashOf a) s = .next t ∧ exec (hashOf a) s' = .next t' ∧ t'.code = t.code ∧
      (t.code = .ok → sameOutcome t t' ∧ t'.hex = t.hex ∧ t'.hexlen = t.hexlen)

/-! ### The block interface equals the one-shot interface -/

/-- The canonical block program of an MD-family algorithm, from any state, leaves what HASH leaves, but for BLK and HEX,
and one ENCODE makes HEX equal (R367). -/
def Obligations.MdBlockProgramEqualsHash : Prop :=
  ∀ a ∈ mdFamily, ∀ (s s' : State) (m : List Byte), s.mlen.toNat = m.length →
    (∀ x, x < m.length → msgByte s x = m.getD x 0) → s.mlen.toNat ≤ s.msgcap.toNat →
    ∃ t u v, runProgram (mdProgram a m) s' = .next t ∧ exec (hashOf a) s = .next u ∧
      exec .encodeDigest t = .next v ∧ sameOutcome t u ∧ sameOutcome v u ∧ v.hex = u.hex ∧
      v.hexlen = u.hexlen ∧ t.hex = Vector.replicate 128 0

/-- The BLAKE2b block program on the key block and the message, from any state with the same CFG, leaves what
HASH.BLAKE2B leaves, but for BLK and HEX, and one ENCODE makes HEX equal (R368). -/
def Obligations.BlakeBlockProgramEqualsHash : Prop :=
  ∀ (s s' : State) (m key : List Byte), s'.cfg = s.cfg → 1 ≤ s.cfg.dlen.toNat → s.cfg.dlen.toNat ≤ 64 →
    s.cfg.klen.toNat ≤ 64 → key = s.key.toList.take s.cfg.klen.toNat → s.mlen.toNat = m.length →
    (∀ x, x < m.length → msgByte s x = m.getD x 0) → s.mlen.toNat ≤ s.msgcap.toNat →
    let data := (if key = [] then [] else key ++ List.replicate (128 - key.length) 0) ++ m
    ∃ t u v, runProgram (blakeProgram data) s' = .next t ∧ exec .hashBlake2b s = .next u ∧
      exec .encodeDigest t = .next v ∧ sameOutcome t u ∧ sameOutcome v u ∧ v.hex = u.hex ∧
      v.hexlen = u.hexlen ∧ t.hex = Vector.replicate 128 0

/-! ### The host's side (spec/20_memory.md) -/

/-- Exactly the accesses of R65, R66 and R452 are refused. That no access faults is the model's (log entry 12: Fault has
no constructor). -/
def Obligations.RefusedAccesses : Prop :=
  ∀ (a : HostAccess) (s : State),
    ((∃ r, hostAccess a s = .refused r) ↔
      match a with
      | .read w o => w ≠ 32 ∨ o % 4 ≠ 0 ∨ 0x400 ≤ o ∨ (s.busy = true ∧ o ≠ 0x004)
      | .write w o _ => w ≠ 32 ∨ o % 4 ≠ 0 ∨ 0x400 ≤ o ∨ s.busy = true
      | .msgRead x => s.msgcap.toNat ≤ x ∨ s.busy = true
      | .msgWrite x _ => s.msgcap.toNat ≤ x ∨ s.busy = true) ∧
    ∀ f, hostAccess a s ≠ .fault f

/-- Every read is free of side effects and can be repeated: nothing changes but the record of what was read (log entry
17), and reading again returns the same value (R72). -/
def Obligations.ReadsHaveNoSideEffect : Prop :=
  ∀ (s t : State) (a : HostAccess),
    (∃ w o, a = .read w o) ∨ (∃ x, a = .msgRead x) → hostAccess a s = .next t →
    ∃ v, t = { s with seen := v :: s.seen } ∧
      hostAccess a t = .next { s with seen := v :: v :: s.seen }

/-- The host's read of every word of the register map returns the content R61 gives it. -/
def Obligations.RegisterMap : Prop :=
  ∀ s : State, s.busy = false →
    let reads (o : Nat) (v : Word32) : Prop :=
      hostAccess (.read 32 o) s = .next { s with seen := v :: s.seen }
    let packed (l : List Byte) (k : Nat) : Word32 :=
      l.getD (4 * k + 3) 0 ++ l.getD (4 * k + 2) 0 ++ l.getD (4 * k + 1) 0 ++ l.getD (4 * k) 0
    reads 0x000 0 ∧ reads 0x004 (statusWord s) ∧ reads 0x008 (cfgWord s) ∧ reads 0x00C (ctxWord s) ∧
    reads 0x010 (s.mlen.extractLsb' 0 32) ∧ reads 0x014 (s.mlen.extractLsb' 32 32) ∧
    reads 0x018 (s.msgcap.extractLsb' 0 32) ∧ reads 0x01C (s.msgcap.extractLsb' 32 32) ∧
    (∀ k, k < 4 → reads (0x020 + 4 * k) (s.t.extractLsb' (32 * k) 32)) ∧
    (∀ i : Fin 8, reads (0x040 + 8 * i.val) ((s.h[i]).extractLsb' 0 32)) ∧
    (∀ i : Fin 8, reads (0x044 + 8 * i.val) ((s.h[i]).extractLsb' 32 32)) ∧
    (∀ k, k < 16 → reads (0x080 + 4 * k) (packed s.digest.toList k)) ∧
    (∀ k, k < 32 → reads (0x100 + 4 * k) (packed s.blk.toList k)) ∧
    (∀ k, k < 16 → reads (0x180 + 4 * k) (packed s.key.toList k)) ∧
    (∀ k, k < 64 → reads (0x200 + 4 * k) (packed s.padbuf.toList k)) ∧
    (∀ k, k < 32 → reads (0x300 + 4 * k) (packed s.hex.toList k)) ∧
    (∀ o, o % 4 = 0 →
      (0x030 ≤ o ∧ o < 0x040) ∨ (0x0C0 ≤ o ∧ o < 0x100) ∨ (0x1C0 ≤ o ∧ o < 0x200) ∨
        (0x380 ≤ o ∧ o < 0x400) →
      reads o 0)

/-- A host write of w to BLK_k or KEY_k sets four bytes of the buffer, the byte at the lower index from bits 7:0, and
changes nothing else (R62). -/
def Obligations.BufferWritesPackLittleEndian : Prop :=
  ∀ (s : State) (w : Word32), s.busy = false →
    (∀ k, k < 32 → ∃ b : Buffer 128, hostAccess (.write 32 (0x100 + 4 * k) w) s = .next { s with blk := b } ∧
      (∀ j, j < 4 → b.toList[4 * k + j]? = some (w.extractLsb' (8 * j) 8)) ∧
      ∀ x, x < 4 * k ∨ 4 * k + 4 ≤ x → b.toList[x]? = s.blk.toList[x]?) ∧
    (∀ k, k < 16 → ∃ b : Buffer 64, hostAccess (.write 32 (0x180 + 4 * k) w) s = .next { s with key := b } ∧
      (∀ j, j < 4 → b.toList[4 * k + j]? = some (w.extractLsb' (8 * j) 8)) ∧
      ∀ x, x < 4 * k ∨ 4 * k + 4 ≤ x → b.toList[x]? = s.key.toList[x]?)

/-- Host writes of CFG and of the halves of MLEN: CFG keeps bits 15:0 and ignores the rest (R29, R63); MLEN_LO and MLEN_HI
replace their half (R30). -/
def Obligations.ConfigurationWrites : Prop :=
  ∀ (s : State) (w : Word32), s.busy = false →
    (∃ t, hostAccess (.write 32 0x008 w) s = .next t ∧ t = { s with cfg := t.cfg } ∧
      cfgWord t = w &&& 0x0000FFFF ∧ t.cfg.dlen = w.extractLsb' 0 8 ∧ t.cfg.klen = w.extractLsb' 8 8) ∧
    (∃ t, hostAccess (.write 32 0x010 w) s = .next t ∧ t = { s with mlen := t.mlen } ∧
      t.mlen.toNat = s.mlen.toNat / 2 ^ 32 * 2 ^ 32 + w.toNat) ∧
    (∃ t, hostAccess (.write 32 0x014 w) s = .next t ∧ t = { s with mlen := t.mlen } ∧
      t.mlen.toNat = w.toNat * 2 ^ 32 + s.mlen.toNat % 2 ^ 32)

/-- A host write to a register the host can only read, or to a reserved offset, is ignored (R63, R64). -/
def Obligations.OtherWritesIgnored : Prop :=
  ∀ (s : State) (w : Word32) (o : Nat), s.busy = false → o % 4 = 0 →
    o = 0x004 ∨ o = 0x00C ∨ (0x018 ≤ o ∧ o < 0x100) ∨ (0x1C0 ≤ o ∧ o < 0x400) →
    hostAccess (.write 32 o w) s = .next s

/-- HostMsgWrite sets one byte of message memory and changes nothing else; HostMsgRead returns the byte, recorded
zero-extended (R66; log entry 17). -/
def Obligations.MessageMemoryAccess : Prop :=
  ∀ (s : State) (x : Nat) (b : Byte), s.busy = false → x < s.msgcap.toNat →
    hostAccess (.msgRead x) s = .next { s with seen := (msgByte s x).setWidth 32 :: s.seen } ∧
    ∃ t, hostAccess (.msgWrite x b) s = .next t ∧ t = { s with msg := t.msg } ∧
      msgByte t x = b ∧ ∀ y, y ≠ x → msgByte t y = msgByte s y

/-- The fields of STATUS, CFG and CTX stand where R32, R29 and R31 put them, and the reserved bits read 0. -/
def Obligations.PackedRegisterFields : Prop :=
  ∀ s : State,
    ((statusWord s).extractLsb' 0 1 = BitVec.ofBool s.busy ∧
      (statusWord s).extractLsb' 1 2 = (match s.phase with | .idle => 0 | .active => 1 | .done => 2) ∧
      (statusWord s).extractLsb' 3 1 = 0 ∧
      (statusWord s).extractLsb' 4 4 =
        (match s.code with
        | .ok => 0 | .errIllegal => 1 | .errSeq => 2 | .errDlen => 3 | .errKlen => 4 | .errLen => 5
        | .errMlen => 6) ∧
      (statusWord s).extractLsb' 8 2 = s.padcnt ∧ (statusWord s).extractLsb' 10 6 = 0 ∧
      (statusWord s).extractLsb' 16 7 = s.diglen ∧ (statusWord s).extractLsb' 23 1 = 0 ∧
      (statusWord s).extractLsb' 24 8 = s.hexlen) ∧
    ((cfgWord s).extractLsb' 0 8 = s.cfg.dlen ∧ (cfgWord s).extractLsb' 8 8 = s.cfg.klen ∧
      (cfgWord s).extractLsb' 16 16 = 0) ∧
    ((ctxWord s).extractLsb' 0 8 = s.ctx.dlen ∧ (ctxWord s).extractLsb' 8 8 = s.ctx.klen ∧
      (ctxWord s).extractLsb' 16 4 =
        (match s.ctx.alg with
        | .md4 => 0 | .md5 => 1 | .sha1 => 2 | .sha256 => 3 | .sha512 => 4 | .ripemd160 => 5
        | .blake2b => 6) ∧
      (ctxWord s).extractLsb' 20 12 = 0)

/-- For SHA-256 the host's read of DIGEST_0 after SERIALIZE is H[0] with its bytes reversed (R70). -/
def Obligations.Sha256DigestWordReversed : Prop :=
  ∀ s t : State, exec .serializeSha256 s = .next t → t.code = .ok → t.busy = false →
    hostAccess (.read 32 0x080) t = .next
      { t with
        seen := ((t.h[0]).extractLsb' 0 8 ++ (t.h[0]).extractLsb' 8 8 ++ (t.h[0]).extractLsb' 16 8 ++
          (t.h[0]).extractLsb' 24 8) :: t.seen }

/-! ### Reset (R43, spec/70_reset_and_hazards.md section 1) -/

/-- The values R43 and R440 give after power-on reset: every register and buffer 0, PHASE IDLE, CODE OK, STATUS 0, nothing
pending. PEND and message memory, which they leave unspecified, do not appear; MSG_CAP is log entry 2's. -/
def Obligations.ResetValues : Prop :=
  let s := State.reset
  s.h = Vector.replicate 8 0 ∧ s.t = 0 ∧ s.blk = Vector.replicate 128 0 ∧
  s.key = Vector.replicate 64 0 ∧ s.padbuf = Vector.replicate 256 0 ∧ s.padcnt = 0 ∧
  s.digest = Vector.replicate 64 0 ∧ s.diglen = 0 ∧ s.hex = Vector.replicate 128 0 ∧ s.hexlen = 0 ∧
  s.cfg.dlen = 0 ∧ s.cfg.klen = 0 ∧ s.mlen = 0 ∧ ctxWord s = 0 ∧ s.busy = false ∧ s.phase = .idle ∧
  s.code = .ok ∧ statusWord s = 0 ∧ s.msgcap = Config.msgCap

/-- A power-on reset happens in every state, abandons a command in progress, and sets every register and buffer to its
reset value; no written byte of message memory survives. PEND and the unwritten bytes are free (log entries 4, 5); MSGCAP
keeps its value (R440, R441; log entry 18). -/
def Obligations.PowerOnResetsEverything : Prop :=
  ∀ (s : State) (rest : List Event), s.schedule = .powerOn :: rest →
    step s = .next
      { s with
        h := Vector.replicate 8 0
        t := 0
        blk := Vector.replicate 128 0
        key := Vector.replicate 64 0
        padbuf := Vector.replicate 256 0
        padcnt := 0
        digest := Vector.replicate 64 0
        diglen := 0
        hex := Vector.replicate 128 0
        hexlen := 0
        cfg := ⟨0, 0⟩
        mlen := 0
        ctx := ⟨.md4, 0, 0⟩
        busy := false
        phase := .idle
        code := .ok
        pend := Config.freePend s.draws
        draws := s.draws + 1
        msg := []
        powerOns := s.powerOns + 1
        schedule := rest }

/-- SRESET and power-on reset differ in message memory alone: a completed SRESET is a power-on reset, but for MSG and the
counter that selects its free contents (R441; log entries 4, 5). -/
def Obligations.SresetDiffersInMessageAlone : Prop :=
  ∀ (s : State) (rest : List Event), s.busy = true → decode s.pend = .ok .sreset →
    s.schedule = .engine :: rest → ∃ t u, step s = .next t ∧
    step { s with schedule := .powerOn :: rest } = .next u ∧
    t = { u with msg := s.msg, powerOns := s.powerOns } ∧ ∀ x, msgByte t x = msgByte s x
end

