-- ==== Sys2Proof/Laws/Bytes.lean ====
section
/-! SUPPORT. The laws of byte sequences, buffers and serialization lengths. -/

namespace Sys2Proof.Machine

@[simp] theorem zeros_length (n : Nat) : (zeros n).length = n := by simp [zeros]

@[simp] theorem toLe_length (v n : Nat) : (toLe v n).length = n := by
  induction n generalizing v with
  | zero => rfl
  | succ n ih => simp [toLe, ih]

@[simp] theorem toBe_length (v n : Nat) : (toBe v n).length = n := by simp [toBe]

/-- A table of `n` rows of `k` words has `n * k` words. -/
theorem tableWords_length (w k : Nat) (rows : List Nat) : (tableWords w k rows).length = rows.length * k := by
  induction rows with
  | nil => simp [tableWords]
  | cons r rs ih =>
    simp only [tableWords, List.flatMap_cons, List.length_append, List.length_map, List.length_range,
      List.length_cons] at ih ⊢
    rw [ih, Nat.succ_mul, Nat.add_comm]

/-- `from_le(to_le(v, n)) = v mod 2^(8n)` (R12). -/
theorem fromLe_toLe (v n : Nat) : fromLe (toLe v n) = v % 256 ^ n := by
  induction n generalizing v with
  | zero => simp [toLe, fromLe, Nat.mod_one]
  | succ n ih =>
    simp only [toLe, fromLe, ih]
    rw [BitVec.toNat_ofNat, show (256 : Nat) ^ (n + 1) = 256 * 256 ^ n from Nat.pow_succ',
      Nat.mod_mul]

/-- `from_be(to_be(v, n)) = v mod 2^(8n)` (R12). -/
theorem fromBe_toBe (v n : Nat) : fromBe (toBe v n) = v % 256 ^ n := by
  simp [fromBe, toBe, fromLe_toLe]

@[simp] theorem fill_toList {w n : Nat} (l : List (BitVec w)) :
    (fill n l).toList = (l ++ List.replicate n 0).take n := by
  simp [fill, Vector.toList]

/-- The entries of a filled vector. -/
theorem fill_getElem {w n : Nat} (l : List (BitVec w)) (i : Nat) (h : i < n) :
    (fill n l)[i] = l.getD i 0 := by
  simp only [fill, Vector.getElem_mk, List.getElem_toArray, List.getElem_take, List.getElem_append,
    List.getElem_replicate, List.getD_eq_getElem?_getD]
  split <;> simp_all

/-- A list that fits is read back from the buffer it fills. -/
theorem prefixOf_fill {n : Nat} (l : List Byte) (h : l.length ≤ n) :
    prefixOf (fill n l : Buffer n) l.length = l := by
  simp [prefixOf, List.take_take, h]

@[simp] theorem prefixOf_length {n : Nat} (b : Buffer n) (k : Nat) :
    (prefixOf b k).length = min k n := by
  simp [prefixOf]

@[simp] theorem wordToBytes_length (a : Alg) (w : Word64) : (wordToBytes a w).length = wordBytes a := by
  unfold wordToBytes; split <;> simp

@[simp] theorem hexText_length (d : List Byte) : (hexText d).length = 2 * d.length := by
  induction d with
  | nil => rfl
  | cons b d ih =>
    rw [hexText] at ih
    rw [hexText, List.flatMap_cons, List.length_append, ih]
    simp; omega

@[simp] theorem lengthBytes_length (a : Alg) (total : Nat) :
    (lengthBytes a total).length = lengthField a := by
  cases a <;> simp [lengthBytes, wordOrder]

@[simp] theorem message_length (s : State) : (message s).length = s.mlen.toNat := by
  simp [message, memRead]

end Sys2Proof.Machine
end

