-- ==== Sys2Proof/Laws/State.lean ====
section
/-! SUPPORT. One lemma per field of State per named update, each true by `rfl`, so that no later proof
unfolds a record update. -/

namespace Sys2Proof.Machine

@[simp] theorem raise_h (c : Code) (s : State) : (raise c s).h = s.h := rfl
@[simp] theorem raise_t (c : Code) (s : State) : (raise c s).t = s.t := rfl
@[simp] theorem raise_blk (c : Code) (s : State) : (raise c s).blk = s.blk := rfl
@[simp] theorem raise_key (c : Code) (s : State) : (raise c s).key = s.key := rfl
@[simp] theorem raise_padbuf (c : Code) (s : State) : (raise c s).padbuf = s.padbuf := rfl
@[simp] theorem raise_digest (c : Code) (s : State) : (raise c s).digest = s.digest := rfl
@[simp] theorem raise_hex (c : Code) (s : State) : (raise c s).hex = s.hex := rfl
@[simp] theorem raise_cfg (c : Code) (s : State) : (raise c s).cfg = s.cfg := rfl
@[simp] theorem raise_mlen (c : Code) (s : State) : (raise c s).mlen = s.mlen := rfl
@[simp] theorem raise_ctx (c : Code) (s : State) : (raise c s).ctx = s.ctx := rfl
@[simp] theorem raise_busy (c : Code) (s : State) : (raise c s).busy = s.busy := rfl
@[simp] theorem raise_phase (c : Code) (s : State) : (raise c s).phase = s.phase := rfl
@[simp] theorem raise_code (c : Code) (s : State) : (raise c s).code = c := rfl
@[simp] theorem raise_padcnt (c : Code) (s : State) : (raise c s).padcnt = s.padcnt := rfl
@[simp] theorem raise_diglen (c : Code) (s : State) : (raise c s).diglen = s.diglen := rfl
@[simp] theorem raise_hexlen (c : Code) (s : State) : (raise c s).hexlen = s.hexlen := rfl
@[simp] theorem raise_pend (c : Code) (s : State) : (raise c s).pend = s.pend := rfl
@[simp] theorem raise_msgcap (c : Code) (s : State) : (raise c s).msgcap = s.msgcap := rfl
@[simp] theorem raise_msg (c : Code) (s : State) : (raise c s).msg = s.msg := rfl
@[simp] theorem raise_powerOns (c : Code) (s : State) : (raise c s).powerOns = s.powerOns := rfl
@[simp] theorem raise_draws (c : Code) (s : State) : (raise c s).draws = s.draws := rfl
@[simp] theorem raise_schedule (c : Code) (s : State) : (raise c s).schedule = s.schedule := rfl
@[simp] theorem raise_seen (c : Code) (s : State) : (raise c s).seen = s.seen := rfl

@[simp] theorem configError_h (c : Code) (s : State) : (configError c s).h = s.h := rfl
@[simp] theorem configError_t (c : Code) (s : State) : (configError c s).t = s.t := rfl
@[simp] theorem configError_blk (c : Code) (s : State) : (configError c s).blk = s.blk := rfl
@[simp] theorem configError_key (c : Code) (s : State) : (configError c s).key = s.key := rfl
@[simp] theorem configError_padbuf (c : Code) (s : State) : (configError c s).padbuf = s.padbuf := rfl
@[simp] theorem configError_digest (c : Code) (s : State) : (configError c s).digest = fill 64 [] := rfl
@[simp] theorem configError_hex (c : Code) (s : State) : (configError c s).hex = fill 128 [] := rfl
@[simp] theorem configError_cfg (c : Code) (s : State) : (configError c s).cfg = s.cfg := rfl
@[simp] theorem configError_mlen (c : Code) (s : State) : (configError c s).mlen = s.mlen := rfl
@[simp] theorem configError_ctx (c : Code) (s : State) : (configError c s).ctx = s.ctx := rfl
@[simp] theorem configError_busy (c : Code) (s : State) : (configError c s).busy = s.busy := rfl
@[simp] theorem configError_phase (c : Code) (s : State) : (configError c s).phase = .idle := rfl
@[simp] theorem configError_code (c : Code) (s : State) : (configError c s).code = c := rfl
@[simp] theorem configError_padcnt (c : Code) (s : State) : (configError c s).padcnt = s.padcnt := rfl
@[simp] theorem configError_diglen (c : Code) (s : State) : (configError c s).diglen = 0 := rfl
@[simp] theorem configError_hexlen (c : Code) (s : State) : (configError c s).hexlen = 0 := rfl
@[simp] theorem configError_pend (c : Code) (s : State) : (configError c s).pend = s.pend := rfl
@[simp] theorem configError_msgcap (c : Code) (s : State) : (configError c s).msgcap = s.msgcap := rfl
@[simp] theorem configError_msg (c : Code) (s : State) : (configError c s).msg = s.msg := rfl
@[simp] theorem configError_powerOns (c : Code) (s : State) : (configError c s).powerOns = s.powerOns := rfl
@[simp] theorem configError_draws (c : Code) (s : State) : (configError c s).draws = s.draws := rfl
@[simp] theorem configError_schedule (c : Code) (s : State) : (configError c s).schedule = s.schedule := rfl
@[simp] theorem configError_seen (c : Code) (s : State) : (configError c s).seen = s.seen := rfl

@[simp] theorem complete_h (s : State) : (complete s).h = s.h := rfl
@[simp] theorem complete_t (s : State) : (complete s).t = s.t := rfl
@[simp] theorem complete_blk (s : State) : (complete s).blk = s.blk := rfl
@[simp] theorem complete_key (s : State) : (complete s).key = s.key := rfl
@[simp] theorem complete_padbuf (s : State) : (complete s).padbuf = s.padbuf := rfl
@[simp] theorem complete_digest (s : State) : (complete s).digest = s.digest := rfl
@[simp] theorem complete_hex (s : State) : (complete s).hex = s.hex := rfl
@[simp] theorem complete_cfg (s : State) : (complete s).cfg = s.cfg := rfl
@[simp] theorem complete_mlen (s : State) : (complete s).mlen = s.mlen := rfl
@[simp] theorem complete_ctx (s : State) : (complete s).ctx = s.ctx := rfl
@[simp] theorem complete_busy (s : State) : (complete s).busy = false := rfl
@[simp] theorem complete_phase (s : State) : (complete s).phase = s.phase := rfl
@[simp] theorem complete_code (s : State) : (complete s).code = s.code := rfl
@[simp] theorem complete_padcnt (s : State) : (complete s).padcnt = s.padcnt := rfl
@[simp] theorem complete_diglen (s : State) : (complete s).diglen = s.diglen := rfl
@[simp] theorem complete_hexlen (s : State) : (complete s).hexlen = s.hexlen := rfl
@[simp] theorem complete_pend (s : State) : (complete s).pend = Config.freePend s.draws := rfl
@[simp] theorem complete_msgcap (s : State) : (complete s).msgcap = s.msgcap := rfl
@[simp] theorem complete_msg (s : State) : (complete s).msg = s.msg := rfl
@[simp] theorem complete_powerOns (s : State) : (complete s).powerOns = s.powerOns := rfl
@[simp] theorem complete_draws (s : State) : (complete s).draws = s.draws + 1 := rfl
@[simp] theorem complete_schedule (s : State) : (complete s).schedule = s.schedule := rfl
@[simp] theorem complete_seen (s : State) : (complete s).seen = s.seen := rfl

@[simp] theorem openContext_h (c : Ctx) (h : RegFile) (s : State) : (openContext c h s).h = h := rfl
@[simp] theorem openContext_t (c : Ctx) (h : RegFile) (s : State) : (openContext c h s).t = 0 := rfl
@[simp] theorem openContext_blk (c : Ctx) (h : RegFile) (s : State) : (openContext c h s).blk = s.blk := rfl
@[simp] theorem openContext_key (c : Ctx) (h : RegFile) (s : State) : (openContext c h s).key = s.key := rfl
@[simp] theorem openContext_padbuf (c : Ctx) (h : RegFile) (s : State) : (openContext c h s).padbuf = fill 256 [] := rfl
@[simp] theorem openContext_digest (c : Ctx) (h : RegFile) (s : State) : (openContext c h s).digest = fill 64 [] := rfl
@[simp] theorem openContext_hex (c : Ctx) (h : RegFile) (s : State) : (openContext c h s).hex = fill 128 [] := rfl
@[simp] theorem openContext_cfg (c : Ctx) (h : RegFile) (s : State) : (openContext c h s).cfg = s.cfg := rfl
@[simp] theorem openContext_mlen (c : Ctx) (h : RegFile) (s : State) : (openContext c h s).mlen = s.mlen := rfl
@[simp] theorem openContext_ctx (c : Ctx) (h : RegFile) (s : State) : (openContext c h s).ctx = c := rfl
@[simp] theorem openContext_busy (c : Ctx) (h : RegFile) (s : State) : (openContext c h s).busy = s.busy := rfl
@[simp] theorem openContext_phase (c : Ctx) (h : RegFile) (s : State) : (openContext c h s).phase = .active := rfl
@[simp] theorem openContext_code (c : Ctx) (h : RegFile) (s : State) : (openContext c h s).code = .ok := rfl
@[simp] theorem openContext_padcnt (c : Ctx) (h : RegFile) (s : State) : (openContext c h s).padcnt = 0 := rfl
@[simp] theorem openContext_diglen (c : Ctx) (h : RegFile) (s : State) : (openContext c h s).diglen = 0 := rfl
@[simp] theorem openContext_hexlen (c : Ctx) (h : RegFile) (s : State) : (openContext c h s).hexlen = 0 := rfl
@[simp] theorem openContext_pend (c : Ctx) (h : RegFile) (s : State) : (openContext c h s).pend = s.pend := rfl
@[simp] theorem openContext_msgcap (c : Ctx) (h : RegFile) (s : State) : (openContext c h s).msgcap = s.msgcap := rfl
@[simp] theorem openContext_msg (c : Ctx) (h : RegFile) (s : State) : (openContext c h s).msg = s.msg := rfl
@[simp] theorem openContext_powerOns (c : Ctx) (h : RegFile) (s : State) : (openContext c h s).powerOns = s.powerOns := rfl
@[simp] theorem openContext_draws (c : Ctx) (h : RegFile) (s : State) : (openContext c h s).draws = s.draws := rfl
@[simp] theorem openContext_schedule (c : Ctx) (h : RegFile) (s : State) : (openContext c h s).schedule = s.schedule := rfl
@[simp] theorem openContext_seen (c : Ctx) (h : RegFile) (s : State) : (openContext c h s).seen = s.seen := rfl

@[simp] theorem storeDigest_h (d : List Byte) (s : State) : (storeDigest d s).h = s.h := rfl
@[simp] theorem storeDigest_t (d : List Byte) (s : State) : (storeDigest d s).t = s.t := rfl
@[simp] theorem storeDigest_blk (d : List Byte) (s : State) : (storeDigest d s).blk = s.blk := rfl
@[simp] theorem storeDigest_key (d : List Byte) (s : State) : (storeDigest d s).key = s.key := rfl
@[simp] theorem storeDigest_padbuf (d : List Byte) (s : State) : (storeDigest d s).padbuf = s.padbuf := rfl
@[simp] theorem storeDigest_digest (d : List Byte) (s : State) : (storeDigest d s).digest = fill 64 d := rfl
@[simp] theorem storeDigest_hex (d : List Byte) (s : State) : (storeDigest d s).hex = fill 128 [] := rfl
@[simp] theorem storeDigest_cfg (d : List Byte) (s : State) : (storeDigest d s).cfg = s.cfg := rfl
@[simp] theorem storeDigest_mlen (d : List Byte) (s : State) : (storeDigest d s).mlen = s.mlen := rfl
@[simp] theorem storeDigest_ctx (d : List Byte) (s : State) : (storeDigest d s).ctx = s.ctx := rfl
@[simp] theorem storeDigest_busy (d : List Byte) (s : State) : (storeDigest d s).busy = s.busy := rfl
@[simp] theorem storeDigest_phase (d : List Byte) (s : State) : (storeDigest d s).phase = s.phase := rfl
@[simp] theorem storeDigest_code (d : List Byte) (s : State) : (storeDigest d s).code = s.code := rfl
@[simp] theorem storeDigest_padcnt (d : List Byte) (s : State) : (storeDigest d s).padcnt = s.padcnt := rfl
@[simp] theorem storeDigest_diglen (d : List Byte) (s : State) : (storeDigest d s).diglen = digestFlag d := rfl
@[simp] theorem storeDigest_hexlen (d : List Byte) (s : State) : (storeDigest d s).hexlen = 0 := rfl
@[simp] theorem storeDigest_pend (d : List Byte) (s : State) : (storeDigest d s).pend = s.pend := rfl
@[simp] theorem storeDigest_msgcap (d : List Byte) (s : State) : (storeDigest d s).msgcap = s.msgcap := rfl
@[simp] theorem storeDigest_msg (d : List Byte) (s : State) : (storeDigest d s).msg = s.msg := rfl
@[simp] theorem storeDigest_powerOns (d : List Byte) (s : State) : (storeDigest d s).powerOns = s.powerOns := rfl
@[simp] theorem storeDigest_draws (d : List Byte) (s : State) : (storeDigest d s).draws = s.draws := rfl
@[simp] theorem storeDigest_schedule (d : List Byte) (s : State) : (storeDigest d s).schedule = s.schedule := rfl
@[simp] theorem storeDigest_seen (d : List Byte) (s : State) : (storeDigest d s).seen = s.seen := rfl

@[simp] theorem storeHex_h (x : List Byte) (s : State) : (storeHex x s).h = s.h := rfl
@[simp] theorem storeHex_t (x : List Byte) (s : State) : (storeHex x s).t = s.t := rfl
@[simp] theorem storeHex_blk (x : List Byte) (s : State) : (storeHex x s).blk = s.blk := rfl
@[simp] theorem storeHex_key (x : List Byte) (s : State) : (storeHex x s).key = s.key := rfl
@[simp] theorem storeHex_padbuf (x : List Byte) (s : State) : (storeHex x s).padbuf = s.padbuf := rfl
@[simp] theorem storeHex_digest (x : List Byte) (s : State) : (storeHex x s).digest = s.digest := rfl
@[simp] theorem storeHex_hex (x : List Byte) (s : State) : (storeHex x s).hex = fill 128 x := rfl
@[simp] theorem storeHex_cfg (x : List Byte) (s : State) : (storeHex x s).cfg = s.cfg := rfl
@[simp] theorem storeHex_mlen (x : List Byte) (s : State) : (storeHex x s).mlen = s.mlen := rfl
@[simp] theorem storeHex_ctx (x : List Byte) (s : State) : (storeHex x s).ctx = s.ctx := rfl
@[simp] theorem storeHex_busy (x : List Byte) (s : State) : (storeHex x s).busy = s.busy := rfl
@[simp] theorem storeHex_phase (x : List Byte) (s : State) : (storeHex x s).phase = s.phase := rfl
@[simp] theorem storeHex_code (x : List Byte) (s : State) : (storeHex x s).code = s.code := rfl
@[simp] theorem storeHex_padcnt (x : List Byte) (s : State) : (storeHex x s).padcnt = s.padcnt := rfl
@[simp] theorem storeHex_diglen (x : List Byte) (s : State) : (storeHex x s).diglen = s.diglen := rfl
@[simp] theorem storeHex_hexlen (x : List Byte) (s : State) : (storeHex x s).hexlen = hexFlag x := rfl
@[simp] theorem storeHex_pend (x : List Byte) (s : State) : (storeHex x s).pend = s.pend := rfl
@[simp] theorem storeHex_msgcap (x : List Byte) (s : State) : (storeHex x s).msgcap = s.msgcap := rfl
@[simp] theorem storeHex_msg (x : List Byte) (s : State) : (storeHex x s).msg = s.msg := rfl
@[simp] theorem storeHex_powerOns (x : List Byte) (s : State) : (storeHex x s).powerOns = s.powerOns := rfl
@[simp] theorem storeHex_draws (x : List Byte) (s : State) : (storeHex x s).draws = s.draws := rfl
@[simp] theorem storeHex_schedule (x : List Byte) (s : State) : (storeHex x s).schedule = s.schedule := rfl
@[simp] theorem storeHex_seen (x : List Byte) (s : State) : (storeHex x s).seen = s.seen := rfl

@[simp] theorem storePadding_h (a : Alg) (p : List Byte) (s : State) : (storePadding a p s).h = s.h := rfl
@[simp] theorem storePadding_t (a : Alg) (p : List Byte) (s : State) : (storePadding a p s).t = s.t := rfl
@[simp] theorem storePadding_blk (a : Alg) (p : List Byte) (s : State) : (storePadding a p s).blk = s.blk := rfl
@[simp] theorem storePadding_key (a : Alg) (p : List Byte) (s : State) : (storePadding a p s).key = s.key := rfl
@[simp] theorem storePadding_padbuf (a : Alg) (p : List Byte) (s : State) : (storePadding a p s).padbuf = fill 256 p := rfl
@[simp] theorem storePadding_digest (a : Alg) (p : List Byte) (s : State) : (storePadding a p s).digest = s.digest := rfl
@[simp] theorem storePadding_hex (a : Alg) (p : List Byte) (s : State) : (storePadding a p s).hex = s.hex := rfl
@[simp] theorem storePadding_cfg (a : Alg) (p : List Byte) (s : State) : (storePadding a p s).cfg = s.cfg := rfl
@[simp] theorem storePadding_mlen (a : Alg) (p : List Byte) (s : State) : (storePadding a p s).mlen = s.mlen := rfl
@[simp] theorem storePadding_ctx (a : Alg) (p : List Byte) (s : State) : (storePadding a p s).ctx = s.ctx := rfl
@[simp] theorem storePadding_busy (a : Alg) (p : List Byte) (s : State) : (storePadding a p s).busy = s.busy := rfl
@[simp] theorem storePadding_phase (a : Alg) (p : List Byte) (s : State) : (storePadding a p s).phase = s.phase := rfl
@[simp] theorem storePadding_code (a : Alg) (p : List Byte) (s : State) : (storePadding a p s).code = s.code := rfl
@[simp] theorem storePadding_padcnt (a : Alg) (p : List Byte) (s : State) : (storePadding a p s).padcnt = padCount a p := rfl
@[simp] theorem storePadding_diglen (a : Alg) (p : List Byte) (s : State) : (storePadding a p s).diglen = s.diglen := rfl
@[simp] theorem storePadding_hexlen (a : Alg) (p : List Byte) (s : State) : (storePadding a p s).hexlen = s.hexlen := rfl
@[simp] theorem storePadding_pend (a : Alg) (p : List Byte) (s : State) : (storePadding a p s).pend = s.pend := rfl
@[simp] theorem storePadding_msgcap (a : Alg) (p : List Byte) (s : State) : (storePadding a p s).msgcap = s.msgcap := rfl
@[simp] theorem storePadding_msg (a : Alg) (p : List Byte) (s : State) : (storePadding a p s).msg = s.msg := rfl
@[simp] theorem storePadding_powerOns (a : Alg) (p : List Byte) (s : State) : (storePadding a p s).powerOns = s.powerOns := rfl
@[simp] theorem storePadding_draws (a : Alg) (p : List Byte) (s : State) : (storePadding a p s).draws = s.draws := rfl
@[simp] theorem storePadding_schedule (a : Alg) (p : List Byte) (s : State) : (storePadding a p s).schedule = s.schedule := rfl
@[simp] theorem storePadding_seen (a : Alg) (p : List Byte) (s : State) : (storePadding a p s).seen = s.seen := rfl

@[simp] theorem closeContext_h (c : Ctx) (h : RegFile) (t : Word128) (p : List Byte) (s : State) : (closeContext c h t p s).h = h := rfl
@[simp] theorem closeContext_t (c : Ctx) (h : RegFile) (t : Word128) (p : List Byte) (s : State) : (closeContext c h t p s).t = t := rfl
@[simp] theorem closeContext_blk (c : Ctx) (h : RegFile) (t : Word128) (p : List Byte) (s : State) : (closeContext c h t p s).blk = s.blk := rfl
@[simp] theorem closeContext_key (c : Ctx) (h : RegFile) (t : Word128) (p : List Byte) (s : State) : (closeContext c h t p s).key = s.key := rfl
@[simp] theorem closeContext_padbuf (c : Ctx) (h : RegFile) (t : Word128) (p : List Byte) (s : State) : (closeContext c h t p s).padbuf = fill 256 p := rfl
@[simp] theorem closeContext_digest (c : Ctx) (h : RegFile) (t : Word128) (p : List Byte) (s : State) : (closeContext c h t p s).digest = fill 64 (serialize c h) := rfl
@[simp] theorem closeContext_hex (c : Ctx) (h : RegFile) (t : Word128) (p : List Byte) (s : State) : (closeContext c h t p s).hex = fill 128 [] := rfl
@[simp] theorem closeContext_cfg (c : Ctx) (h : RegFile) (t : Word128) (p : List Byte) (s : State) : (closeContext c h t p s).cfg = s.cfg := rfl
@[simp] theorem closeContext_mlen (c : Ctx) (h : RegFile) (t : Word128) (p : List Byte) (s : State) : (closeContext c h t p s).mlen = s.mlen := rfl
@[simp] theorem closeContext_ctx (c : Ctx) (h : RegFile) (t : Word128) (p : List Byte) (s : State) : (closeContext c h t p s).ctx = c := rfl
@[simp] theorem closeContext_busy (c : Ctx) (h : RegFile) (t : Word128) (p : List Byte) (s : State) : (closeContext c h t p s).busy = s.busy := rfl
@[simp] theorem closeContext_phase (c : Ctx) (h : RegFile) (t : Word128) (p : List Byte) (s : State) : (closeContext c h t p s).phase = .done := rfl
@[simp] theorem closeContext_code (c : Ctx) (h : RegFile) (t : Word128) (p : List Byte) (s : State) : (closeContext c h t p s).code = .ok := rfl
@[simp] theorem closeContext_padcnt (c : Ctx) (h : RegFile) (t : Word128) (p : List Byte) (s : State) : (closeContext c h t p s).padcnt = padCount c.alg p := rfl
@[simp] theorem closeContext_diglen (c : Ctx) (h : RegFile) (t : Word128) (p : List Byte) (s : State) : (closeContext c h t p s).diglen = digestFlag (serialize c h) := rfl
@[simp] theorem closeContext_hexlen (c : Ctx) (h : RegFile) (t : Word128) (p : List Byte) (s : State) : (closeContext c h t p s).hexlen = 0 := rfl
@[simp] theorem closeContext_pend (c : Ctx) (h : RegFile) (t : Word128) (p : List Byte) (s : State) : (closeContext c h t p s).pend = s.pend := rfl
@[simp] theorem closeContext_msgcap (c : Ctx) (h : RegFile) (t : Word128) (p : List Byte) (s : State) : (closeContext c h t p s).msgcap = s.msgcap := rfl
@[simp] theorem closeContext_msg (c : Ctx) (h : RegFile) (t : Word128) (p : List Byte) (s : State) : (closeContext c h t p s).msg = s.msg := rfl
@[simp] theorem closeContext_powerOns (c : Ctx) (h : RegFile) (t : Word128) (p : List Byte) (s : State) : (closeContext c h t p s).powerOns = s.powerOns := rfl
@[simp] theorem closeContext_draws (c : Ctx) (h : RegFile) (t : Word128) (p : List Byte) (s : State) : (closeContext c h t p s).draws = s.draws := rfl
@[simp] theorem closeContext_schedule (c : Ctx) (h : RegFile) (t : Word128) (p : List Byte) (s : State) : (closeContext c h t p s).schedule = s.schedule := rfl
@[simp] theorem closeContext_seen (c : Ctx) (h : RegFile) (t : Word128) (p : List Byte) (s : State) : (closeContext c h t p s).seen = s.seen := rfl

@[simp] theorem issue_h (c : Word32) (s : State) : (issue c s).h = s.h := rfl
@[simp] theorem issue_t (c : Word32) (s : State) : (issue c s).t = s.t := rfl
@[simp] theorem issue_blk (c : Word32) (s : State) : (issue c s).blk = s.blk := rfl
@[simp] theorem issue_key (c : Word32) (s : State) : (issue c s).key = s.key := rfl
@[simp] theorem issue_padbuf (c : Word32) (s : State) : (issue c s).padbuf = s.padbuf := rfl
@[simp] theorem issue_digest (c : Word32) (s : State) : (issue c s).digest = s.digest := rfl
@[simp] theorem issue_hex (c : Word32) (s : State) : (issue c s).hex = s.hex := rfl
@[simp] theorem issue_cfg (c : Word32) (s : State) : (issue c s).cfg = s.cfg := rfl
@[simp] theorem issue_mlen (c : Word32) (s : State) : (issue c s).mlen = s.mlen := rfl
@[simp] theorem issue_ctx (c : Word32) (s : State) : (issue c s).ctx = s.ctx := rfl
@[simp] theorem issue_busy (c : Word32) (s : State) : (issue c s).busy = true := rfl
@[simp] theorem issue_phase (c : Word32) (s : State) : (issue c s).phase = s.phase := rfl
@[simp] theorem issue_code (c : Word32) (s : State) : (issue c s).code = s.code := rfl
@[simp] theorem issue_padcnt (c : Word32) (s : State) : (issue c s).padcnt = s.padcnt := rfl
@[simp] theorem issue_diglen (c : Word32) (s : State) : (issue c s).diglen = s.diglen := rfl
@[simp] theorem issue_hexlen (c : Word32) (s : State) : (issue c s).hexlen = s.hexlen := rfl
@[simp] theorem issue_pend (c : Word32) (s : State) : (issue c s).pend = c := rfl
@[simp] theorem issue_msgcap (c : Word32) (s : State) : (issue c s).msgcap = s.msgcap := rfl
@[simp] theorem issue_msg (c : Word32) (s : State) : (issue c s).msg = s.msg := rfl
@[simp] theorem issue_powerOns (c : Word32) (s : State) : (issue c s).powerOns = s.powerOns := rfl
@[simp] theorem issue_draws (c : Word32) (s : State) : (issue c s).draws = s.draws := rfl
@[simp] theorem issue_schedule (c : Word32) (s : State) : (issue c s).schedule = s.schedule := rfl
@[simp] theorem issue_seen (c : Word32) (s : State) : (issue c s).seen = s.seen := rfl

@[simp] theorem returned_h (v : Word32) (s : State) : (returned v s).h = s.h := rfl
@[simp] theorem returned_t (v : Word32) (s : State) : (returned v s).t = s.t := rfl
@[simp] theorem returned_blk (v : Word32) (s : State) : (returned v s).blk = s.blk := rfl
@[simp] theorem returned_key (v : Word32) (s : State) : (returned v s).key = s.key := rfl
@[simp] theorem returned_padbuf (v : Word32) (s : State) : (returned v s).padbuf = s.padbuf := rfl
@[simp] theorem returned_digest (v : Word32) (s : State) : (returned v s).digest = s.digest := rfl
@[simp] theorem returned_hex (v : Word32) (s : State) : (returned v s).hex = s.hex := rfl
@[simp] theorem returned_cfg (v : Word32) (s : State) : (returned v s).cfg = s.cfg := rfl
@[simp] theorem returned_mlen (v : Word32) (s : State) : (returned v s).mlen = s.mlen := rfl
@[simp] theorem returned_ctx (v : Word32) (s : State) : (returned v s).ctx = s.ctx := rfl
@[simp] theorem returned_busy (v : Word32) (s : State) : (returned v s).busy = s.busy := rfl
@[simp] theorem returned_phase (v : Word32) (s : State) : (returned v s).phase = s.phase := rfl
@[simp] theorem returned_code (v : Word32) (s : State) : (returned v s).code = s.code := rfl
@[simp] theorem returned_padcnt (v : Word32) (s : State) : (returned v s).padcnt = s.padcnt := rfl
@[simp] theorem returned_diglen (v : Word32) (s : State) : (returned v s).diglen = s.diglen := rfl
@[simp] theorem returned_hexlen (v : Word32) (s : State) : (returned v s).hexlen = s.hexlen := rfl
@[simp] theorem returned_pend (v : Word32) (s : State) : (returned v s).pend = s.pend := rfl
@[simp] theorem returned_msgcap (v : Word32) (s : State) : (returned v s).msgcap = s.msgcap := rfl
@[simp] theorem returned_msg (v : Word32) (s : State) : (returned v s).msg = s.msg := rfl
@[simp] theorem returned_powerOns (v : Word32) (s : State) : (returned v s).powerOns = s.powerOns := rfl
@[simp] theorem returned_draws (v : Word32) (s : State) : (returned v s).draws = s.draws := rfl
@[simp] theorem returned_schedule (v : Word32) (s : State) : (returned v s).schedule = s.schedule := rfl
@[simp] theorem returned_seen (v : Word32) (s : State) : (returned v s).seen = v :: s.seen := rfl

@[simp] theorem loadBlk_h (b : List Byte) (s : State) : (loadBlk b s).h = s.h := rfl
@[simp] theorem loadBlk_t (b : List Byte) (s : State) : (loadBlk b s).t = s.t := rfl
@[simp] theorem loadBlk_blk (b : List Byte) (s : State) : (loadBlk b s).blk = fill 128 (b ++ s.blk.toList.drop b.length) := rfl
@[simp] theorem loadBlk_key (b : List Byte) (s : State) : (loadBlk b s).key = s.key := rfl
@[simp] theorem loadBlk_padbuf (b : List Byte) (s : State) : (loadBlk b s).padbuf = s.padbuf := rfl
@[simp] theorem loadBlk_digest (b : List Byte) (s : State) : (loadBlk b s).digest = s.digest := rfl
@[simp] theorem loadBlk_hex (b : List Byte) (s : State) : (loadBlk b s).hex = s.hex := rfl
@[simp] theorem loadBlk_cfg (b : List Byte) (s : State) : (loadBlk b s).cfg = s.cfg := rfl
@[simp] theorem loadBlk_mlen (b : List Byte) (s : State) : (loadBlk b s).mlen = s.mlen := rfl
@[simp] theorem loadBlk_ctx (b : List Byte) (s : State) : (loadBlk b s).ctx = s.ctx := rfl
@[simp] theorem loadBlk_busy (b : List Byte) (s : State) : (loadBlk b s).busy = s.busy := rfl
@[simp] theorem loadBlk_phase (b : List Byte) (s : State) : (loadBlk b s).phase = s.phase := rfl
@[simp] theorem loadBlk_code (b : List Byte) (s : State) : (loadBlk b s).code = s.code := rfl
@[simp] theorem loadBlk_padcnt (b : List Byte) (s : State) : (loadBlk b s).padcnt = s.padcnt := rfl
@[simp] theorem loadBlk_diglen (b : List Byte) (s : State) : (loadBlk b s).diglen = s.diglen := rfl
@[simp] theorem loadBlk_hexlen (b : List Byte) (s : State) : (loadBlk b s).hexlen = s.hexlen := rfl
@[simp] theorem loadBlk_pend (b : List Byte) (s : State) : (loadBlk b s).pend = s.pend := rfl
@[simp] theorem loadBlk_msgcap (b : List Byte) (s : State) : (loadBlk b s).msgcap = s.msgcap := rfl
@[simp] theorem loadBlk_msg (b : List Byte) (s : State) : (loadBlk b s).msg = s.msg := rfl
@[simp] theorem loadBlk_powerOns (b : List Byte) (s : State) : (loadBlk b s).powerOns = s.powerOns := rfl
@[simp] theorem loadBlk_draws (b : List Byte) (s : State) : (loadBlk b s).draws = s.draws := rfl
@[simp] theorem loadBlk_schedule (b : List Byte) (s : State) : (loadBlk b s).schedule = s.schedule := rfl
@[simp] theorem loadBlk_seen (b : List Byte) (s : State) : (loadBlk b s).seen = s.seen := rfl

@[simp] theorem powerOnReset_h (s : State) : (powerOnReset s).h = State.reset.h := rfl
@[simp] theorem powerOnReset_t (s : State) : (powerOnReset s).t = State.reset.t := rfl
@[simp] theorem powerOnReset_blk (s : State) : (powerOnReset s).blk = State.reset.blk := rfl
@[simp] theorem powerOnReset_key (s : State) : (powerOnReset s).key = State.reset.key := rfl
@[simp] theorem powerOnReset_padbuf (s : State) : (powerOnReset s).padbuf = State.reset.padbuf := rfl
@[simp] theorem powerOnReset_digest (s : State) : (powerOnReset s).digest = State.reset.digest := rfl
@[simp] theorem powerOnReset_hex (s : State) : (powerOnReset s).hex = State.reset.hex := rfl
@[simp] theorem powerOnReset_cfg (s : State) : (powerOnReset s).cfg = State.reset.cfg := rfl
@[simp] theorem powerOnReset_mlen (s : State) : (powerOnReset s).mlen = State.reset.mlen := rfl
@[simp] theorem powerOnReset_ctx (s : State) : (powerOnReset s).ctx = State.reset.ctx := rfl
@[simp] theorem powerOnReset_busy (s : State) : (powerOnReset s).busy = State.reset.busy := rfl
@[simp] theorem powerOnReset_phase (s : State) : (powerOnReset s).phase = State.reset.phase := rfl
@[simp] theorem powerOnReset_code (s : State) : (powerOnReset s).code = State.reset.code := rfl
@[simp] theorem powerOnReset_padcnt (s : State) : (powerOnReset s).padcnt = State.reset.padcnt := rfl
@[simp] theorem powerOnReset_diglen (s : State) : (powerOnReset s).diglen = State.reset.diglen := rfl
@[simp] theorem powerOnReset_hexlen (s : State) : (powerOnReset s).hexlen = State.reset.hexlen := rfl
@[simp] theorem powerOnReset_pend (s : State) : (powerOnReset s).pend = Config.freePend s.draws := rfl
@[simp] theorem powerOnReset_msgcap (s : State) : (powerOnReset s).msgcap = s.msgcap := rfl
@[simp] theorem powerOnReset_msg (s : State) : (powerOnReset s).msg = State.reset.msg := rfl
@[simp] theorem powerOnReset_powerOns (s : State) : (powerOnReset s).powerOns = s.powerOns + 1 := rfl
@[simp] theorem powerOnReset_draws (s : State) : (powerOnReset s).draws = s.draws + 1 := rfl
@[simp] theorem powerOnReset_schedule (s : State) : (powerOnReset s).schedule = s.schedule := rfl
@[simp] theorem powerOnReset_seen (s : State) : (powerOnReset s).seen = s.seen := rfl

@[simp] theorem withFetchWord_h (s : State) (nbits w : Nat) :
    (s.withFetchWord nbits w).h = s.h := rfl
@[simp] theorem withFetchWord_t (s : State) (nbits w : Nat) :
    (s.withFetchWord nbits w).t = s.t := rfl
@[simp] theorem withFetchWord_blk (s : State) (nbits w : Nat) :
    (s.withFetchWord nbits w).blk = s.blk := rfl
@[simp] theorem withFetchWord_key (s : State) (nbits w : Nat) :
    (s.withFetchWord nbits w).key = s.key := rfl
@[simp] theorem withFetchWord_padbuf (s : State) (nbits w : Nat) :
    (s.withFetchWord nbits w).padbuf = s.padbuf := rfl
@[simp] theorem withFetchWord_digest (s : State) (nbits w : Nat) :
    (s.withFetchWord nbits w).digest = s.digest := rfl
@[simp] theorem withFetchWord_hex (s : State) (nbits w : Nat) :
    (s.withFetchWord nbits w).hex = s.hex := rfl
@[simp] theorem withFetchWord_cfg (s : State) (nbits w : Nat) :
    (s.withFetchWord nbits w).cfg = s.cfg := rfl
@[simp] theorem withFetchWord_mlen (s : State) (nbits w : Nat) :
    (s.withFetchWord nbits w).mlen = s.mlen := rfl
@[simp] theorem withFetchWord_ctx (s : State) (nbits w : Nat) :
    (s.withFetchWord nbits w).ctx = s.ctx := rfl
@[simp] theorem withFetchWord_busy (s : State) (nbits w : Nat) :
    (s.withFetchWord nbits w).busy = true := rfl
@[simp] theorem withFetchWord_phase (s : State) (nbits w : Nat) :
    (s.withFetchWord nbits w).phase = s.phase := rfl
@[simp] theorem withFetchWord_code (s : State) (nbits w : Nat) :
    (s.withFetchWord nbits w).code = s.code := rfl
@[simp] theorem withFetchWord_padcnt (s : State) (nbits w : Nat) :
    (s.withFetchWord nbits w).padcnt = s.padcnt := rfl
@[simp] theorem withFetchWord_diglen (s : State) (nbits w : Nat) :
    (s.withFetchWord nbits w).diglen = s.diglen := rfl
@[simp] theorem withFetchWord_hexlen (s : State) (nbits w : Nat) :
    (s.withFetchWord nbits w).hexlen = s.hexlen := rfl
@[simp] theorem withFetchWord_pend (s : State) (nbits w : Nat) :
    (s.withFetchWord nbits w).pend = BitVec.ofNat 32 (w % 2 ^ nbits) := rfl
@[simp] theorem withFetchWord_msgcap (s : State) (nbits w : Nat) :
    (s.withFetchWord nbits w).msgcap = s.msgcap := rfl
@[simp] theorem withFetchWord_msg (s : State) (nbits w : Nat) :
    (s.withFetchWord nbits w).msg = s.msg := rfl
@[simp] theorem withFetchWord_powerOns (s : State) (nbits w : Nat) :
    (s.withFetchWord nbits w).powerOns = s.powerOns := rfl
@[simp] theorem withFetchWord_draws (s : State) (nbits w : Nat) :
    (s.withFetchWord nbits w).draws = s.draws := rfl
@[simp] theorem withFetchWord_schedule (s : State) (nbits w : Nat) :
    (s.withFetchWord nbits w).schedule = .engine :: s.schedule := rfl
@[simp] theorem withFetchWord_seen (s : State) (nbits w : Nat) :
    (s.withFetchWord nbits w).seen = s.seen := rfl

end Sys2Proof.Machine
end

