-- ==== Sys2Proof/Laws/Templates.lean ====
section
/-! SUPPORT. What each shared operation of the commands can answer, once per operation, and which
template each command is. Provers cite these instead of unfolding the meanings. -/

namespace Sys2Proof.Machine

/-! ### The engines -/

/-- A property of the six engines, one by one. -/
theorem forall_mdEngines {P : MdEngine → Prop} (h1 : P md4Engine) (h2 : P md5Engine)
    (h3 : P sha1Engine) (h4 : P sha256Engine) (h5 : P sha512Engine) (h6 : P ripemd160Engine) :
    ∀ e ∈ mdEngines, P e := by
  simp only [mdEngines, List.forall_mem_cons, List.not_mem_nil, IsEmpty.forall_iff, implies_true,
    and_true]
  exact ⟨h1, h2, h3, h4, h5, h6⟩

theorem mdEngine_not_blake : ∀ e ∈ mdEngines, e.alg ≠ .blake2b := by
  apply forall_mdEngines <;> decide

/-- Every algorithm is BLAKE2b or has an engine of the MD family. -/
theorem alg_engine (a : Alg) : a = .blake2b ∨ ∃ e ∈ mdEngines, e.alg = a := by
  cases a
  · exact .inr ⟨md4Engine, by simp [mdEngines], rfl⟩
  · exact .inr ⟨md5Engine, by simp [mdEngines], rfl⟩
  · exact .inr ⟨sha1Engine, by simp [mdEngines], rfl⟩
  · exact .inr ⟨sha256Engine, by simp [mdEngines], rfl⟩
  · exact .inr ⟨sha512Engine, by simp [mdEngines], rfl⟩
  · exact .inr ⟨ripemd160Engine, by simp [mdEngines], rfl⟩
  · exact .inl rfl

/-- Every command is of one of the nine operations. -/
theorem instr_family (i : Instr) :
    i = .nop ∨ i = .sreset ∨ i = .encodeDigest ∨ (∃ a, i = initOf a) ∨ (∃ a, i = compressOf a) ∨
    (∃ a n, i = padOf a n) ∨ (∃ a n, i = finalOf a n) ∨ (∃ a, i = serializeOf a) ∨
    ∃ a, i = hashOf a := by
  cases i
  case nop => exact .inl rfl
  case sreset => exact .inr (.inl rfl)
  case encodeDigest => exact .inr (.inr (.inl rfl))
  case initMd4 => exact .inr (.inr (.inr (.inl ⟨.md4, rfl⟩)))
  case initMd5 => exact .inr (.inr (.inr (.inl ⟨.md5, rfl⟩)))
  case initSha1 => exact .inr (.inr (.inr (.inl ⟨.sha1, rfl⟩)))
  case initSha256 => exact .inr (.inr (.inr (.inl ⟨.sha256, rfl⟩)))
  case initSha512 => exact .inr (.inr (.inr (.inl ⟨.sha512, rfl⟩)))
  case initRipemd160 => exact .inr (.inr (.inr (.inl ⟨.ripemd160, rfl⟩)))
  case initBlake2b => exact .inr (.inr (.inr (.inl ⟨.blake2b, rfl⟩)))
  case compressMd4 => exact .inr (.inr (.inr (.inr (.inl ⟨.md4, rfl⟩))))
  case compressMd5 => exact .inr (.inr (.inr (.inr (.inl ⟨.md5, rfl⟩))))
  case compressSha1 => exact .inr (.inr (.inr (.inr (.inl ⟨.sha1, rfl⟩))))
  case compressSha256 => exact .inr (.inr (.inr (.inr (.inl ⟨.sha256, rfl⟩))))
  case compressSha512 => exact .inr (.inr (.inr (.inr (.inl ⟨.sha512, rfl⟩))))
  case compressRipemd160 => exact .inr (.inr (.inr (.inr (.inl ⟨.ripemd160, rfl⟩))))
  case compressBlake2b => exact .inr (.inr (.inr (.inr (.inl ⟨.blake2b, rfl⟩))))
  case padMd4 n => exact .inr (.inr (.inr (.inr (.inr (.inl ⟨.md4, n, rfl⟩)))))
  case padMd5 n => exact .inr (.inr (.inr (.inr (.inr (.inl ⟨.md5, n, rfl⟩)))))
  case padSha1 n => exact .inr (.inr (.inr (.inr (.inr (.inl ⟨.sha1, n, rfl⟩)))))
  case padSha256 n => exact .inr (.inr (.inr (.inr (.inr (.inl ⟨.sha256, n, rfl⟩)))))
  case padSha512 n => exact .inr (.inr (.inr (.inr (.inr (.inl ⟨.sha512, n, rfl⟩)))))
  case padRipemd160 n => exact .inr (.inr (.inr (.inr (.inr (.inl ⟨.ripemd160, n, rfl⟩)))))
  case padBlake2b n => exact .inr (.inr (.inr (.inr (.inr (.inl ⟨.blake2b, n, rfl⟩)))))
  case finalMd4 n => exact .inr (.inr (.inr (.inr (.inr (.inr (.inl ⟨.md4, n, rfl⟩))))))
  case finalMd5 n => exact .inr (.inr (.inr (.inr (.inr (.inr (.inl ⟨.md5, n, rfl⟩))))))
  case finalSha1 n => exact .inr (.inr (.inr (.inr (.inr (.inr (.inl ⟨.sha1, n, rfl⟩))))))
  case finalSha256 n => exact .inr (.inr (.inr (.inr (.inr (.inr (.inl ⟨.sha256, n, rfl⟩))))))
  case finalSha512 n => exact .inr (.inr (.inr (.inr (.inr (.inr (.inl ⟨.sha512, n, rfl⟩))))))
  case finalRipemd160 n => exact .inr (.inr (.inr (.inr (.inr (.inr (.inl ⟨.ripemd160, n, rfl⟩))))))
  case finalBlake2b n => exact .inr (.inr (.inr (.inr (.inr (.inr (.inl ⟨.blake2b, n, rfl⟩))))))
  case serializeMd4 => exact .inr (.inr (.inr (.inr (.inr (.inr (.inr (.inl ⟨.md4, rfl⟩)))))))
  case serializeMd5 => exact .inr (.inr (.inr (.inr (.inr (.inr (.inr (.inl ⟨.md5, rfl⟩)))))))
  case serializeSha1 => exact .inr (.inr (.inr (.inr (.inr (.inr (.inr (.inl ⟨.sha1, rfl⟩)))))))
  case serializeSha256 => exact .inr (.inr (.inr (.inr (.inr (.inr (.inr (.inl ⟨.sha256, rfl⟩)))))))
  case serializeSha512 => exact .inr (.inr (.inr (.inr (.inr (.inr (.inr (.inl ⟨.sha512, rfl⟩)))))))
  case serializeRipemd160 =>
    exact .inr (.inr (.inr (.inr (.inr (.inr (.inr (.inl ⟨.ripemd160, rfl⟩)))))))
  case serializeBlake2b =>
    exact .inr (.inr (.inr (.inr (.inr (.inr (.inr (.inl ⟨.blake2b, rfl⟩)))))))
  case hashMd4 => exact .inr (.inr (.inr (.inr (.inr (.inr (.inr (.inr ⟨.md4, rfl⟩)))))))
  case hashMd5 => exact .inr (.inr (.inr (.inr (.inr (.inr (.inr (.inr ⟨.md5, rfl⟩)))))))
  case hashSha1 => exact .inr (.inr (.inr (.inr (.inr (.inr (.inr (.inr ⟨.sha1, rfl⟩)))))))
  case hashSha256 => exact .inr (.inr (.inr (.inr (.inr (.inr (.inr (.inr ⟨.sha256, rfl⟩)))))))
  case hashSha512 => exact .inr (.inr (.inr (.inr (.inr (.inr (.inr (.inr ⟨.sha512, rfl⟩)))))))
  case hashRipemd160 => exact .inr (.inr (.inr (.inr (.inr (.inr (.inr (.inr ⟨.ripemd160, rfl⟩)))))))
  case hashBlake2b => exact .inr (.inr (.inr (.inr (.inr (.inr (.inr (.inr ⟨.blake2b, rfl⟩)))))))

/-! ### Which template a command is -/

theorem exec_initOf (s : State) : ∀ e ∈ mdEngines, exec (initOf e.alg) s = initMd e s := by
  apply forall_mdEngines <;> rfl

theorem exec_compressOf (s : State) :
    ∀ e ∈ mdEngines, exec (compressOf e.alg) s = compressMd e s := by
  apply forall_mdEngines <;> rfl

theorem exec_padOf (n : Nat) (s : State) :
    ∀ e ∈ mdEngines, exec (padOf e.alg n) s = padMd e.alg n s := by
  apply forall_mdEngines <;> rfl

theorem exec_finalOf (n : Nat) (s : State) :
    ∀ e ∈ mdEngines, exec (finalOf e.alg n) s = finalMd e n s := by
  apply forall_mdEngines <;> rfl

theorem exec_hashOf (s : State) : ∀ e ∈ mdEngines, exec (hashOf e.alg) s = hashMd e s := by
  apply forall_mdEngines <;> rfl

theorem exec_serializeOf (a : Alg) (s : State) :
    exec (serializeOf a) s = serializeTemplate a s := by
  cases a <;> rfl

/-! ### What a template can answer -/

@[simp] theorem next_inj (s t : State) :
    ((Host.Outcome.next s : Result) = .next t) = (s = t) := by
  simp

theorem activeFor_iff (s : State) (a : Alg) :
    activeFor s a = true ↔ s.phase = .active ∧ s.ctx.alg = a := by
  simp [activeFor]

theorem openFor_iff (s : State) (a : Alg) :
    openFor s a = true ↔ s.phase ≠ .idle ∧ s.ctx.alg = a := by
  simp [openFor]

theorem messageTooLong_iff (s : State) :
    messageTooLong s = true ↔ s.msgcap.toNat < s.mlen.toNat := by
  simp [messageTooLong, BitVec.lt_def]

theorem lt_one_iff (b : Byte) : b < 1 ↔ b.toNat = 0 := by
  rw [BitVec.lt_def, show (1 : Byte).toNat = 1 from rfl]; omega

theorem sixtyFour_lt_iff (b : Byte) : 64 < b ↔ 65 ≤ b.toNat := by
  rw [BitVec.lt_def, show (64 : Byte).toNat = 64 from rfl]; omega

theorem configFault_cases (s : State) :
    (configFault s = some .errDlen ∧ (s.cfg.dlen.toNat = 0 ∨ 65 ≤ s.cfg.dlen.toNat)) ∨
    (configFault s = some .errKlen ∧ (1 ≤ s.cfg.dlen.toNat ∧ s.cfg.dlen.toNat ≤ 64) ∧
      65 ≤ s.cfg.klen.toNat) ∨
    (configFault s = none ∧ (1 ≤ s.cfg.dlen.toNat ∧ s.cfg.dlen.toNat ≤ 64) ∧
      s.cfg.klen.toNat ≤ 64) := by
  simp only [configFault, lt_one_iff, sixtyFour_lt_iff]
  split
  · exact .inl ⟨rfl, ‹_›⟩
  · split
    · exact .inr (.inl ⟨rfl, by omega, ‹_›⟩)
    · exact .inr (.inr ⟨rfl, by omega, by omega⟩)

theorem compressMd_cases {e : MdEngine} {s t : State} (h : compressMd e s = .next t) :
    (activeFor s e.alg = true ∧
      t = { s with
            h := e.compress s.h (blockOperand s e.alg)
            t := advanced s (blockSize e.alg)
            code := .ok }) ∨
    (activeFor s e.alg = false ∧ t = raise .errSeq s) := by
  unfold compressMd at h
  split at h <;> simp_all

theorem compressBlake_cases {s t : State} (h : compressBlake s = .next t) :
    (activeFor s .blake2b = true ∧
      t = { s with
            h := (blakeUpdate (s.h, s.t) (blockOperand s .blake2b)).1
            t := (blakeUpdate (s.h, s.t) (blockOperand s .blake2b)).2
            code := .ok }) ∨
    (activeFor s .blake2b = false ∧ t = raise .errSeq s) := by
  unfold compressBlake at h
  split at h <;> simp_all

theorem padMd_cases {a : Alg} {n : Nat} {s t : State} (h : padMd a n s = .next t) :
    (activeFor s a = true ∧ tailTooLong a n = false ∧
      t = { storePadding a (mdPad a (tailOperand s n) (advanced s n).toNat) s with code := .ok }) ∨
    (activeFor s a = true ∧ tailTooLong a n = true ∧ t = raise .errLen s) ∨
    (activeFor s a = false ∧ t = raise .errSeq s) := by
  unfold padMd at h
  split at h
  · split at h <;> simp_all
  · simp_all

theorem padBlake_cases {n : Nat} {s t : State} (h : padBlake n s = .next t) :
    (activeFor s .blake2b = true ∧ n ≤ 128 ∧
      t = { storePadding .blake2b (blakePad (tailOperand s n)) s with code := .ok }) ∨
    (activeFor s .blake2b = true ∧ 128 < n ∧ t = raise .errLen s) ∨
    (activeFor s .blake2b = false ∧ t = raise .errSeq s) := by
  unfold padBlake at h
  split at h
  · split at h <;> simp_all [tailTooLong]
  · simp_all

theorem finalMd_cases {e : MdEngine} {n : Nat} {s t : State} (h : finalMd e n s = .next t) :
    (activeFor s e.alg = true ∧ tailTooLong e.alg n = false ∧
      t = closeContext s.ctx
            (absorbAll e s.h (mdPad e.alg (tailOperand s n) (advanced s n).toNat)) (advanced s n)
            (mdPad e.alg (tailOperand s n) (advanced s n).toNat) s) ∨
    (activeFor s e.alg = true ∧ tailTooLong e.alg n = true ∧ t = raise .errLen s) ∨
    (activeFor s e.alg = false ∧ t = raise .errSeq s) := by
  unfold finalMd at h
  split at h
  · split at h <;> simp_all
  · simp_all

theorem finalBlake_cases {n : Nat} {s t : State} (h : finalBlake n s = .next t) :
    (activeFor s .blake2b = true ∧ n ≤ 128 ∧ emptyTailRefused n s = false ∧
      t = closeContext s.ctx (blakeFinish (s.h, s.t) (tailOperand s n)).1
            (blakeFinish (s.h, s.t) (tailOperand s n)).2 (blakePad (tailOperand s n)) s) ∨
    (activeFor s .blake2b = true ∧ (128 < n ∨ emptyTailRefused n s = true) ∧ t = raise .errLen s) ∨
    (activeFor s .blake2b = false ∧ t = raise .errSeq s) := by
  unfold finalBlake at h
  split at h
  · split at h <;> simp_all [tailTooLong]
  · simp_all

theorem initBlake_cases {s t : State} (h : initBlake s = .next t) :
    (configFault s = none ∧
      t = openContext ⟨.blake2b, s.cfg.dlen, s.cfg.klen⟩ (blakeInit s.cfg.dlen s.cfg.klen) s) ∨
    ∃ c, configFault s = some c ∧ t = configError c s := by
  unfold initBlake at h
  split at h <;> simp_all

theorem hashMd_cases {e : MdEngine} {s t : State} (h : hashMd e s = .next t) :
    (messageTooLong s = true ∧ t = raise .errMlen s) ∨
    (messageTooLong s = false ∧ ∃ p r,
      p = mdPad e.alg (messageTail e.alg (message s)) s.mlen.toNat ∧
      r = absorbAll e (absorbAll e e.iv (message s)) p ∧
      t = storeHex (hexText (serialize ⟨e.alg, 0, 0⟩ r))
            (closeContext ⟨e.alg, 0, 0⟩ r (s.mlen.setWidth 128) p s)) := by
  unfold hashMd at h
  split at h
  · simp_all
  · rename_i hl
    refine .inr ⟨by simpa using hl, _, _, rfl, rfl, ?_⟩
    simpa using h.symm

theorem hashBlake_cases {s t : State} (h : hashBlake s = .next t) :
    (∃ c, configFault s = some c ∧ t = configError c s) ∨
    (configFault s = none ∧ messageTooLong s = true ∧ t = raise .errMlen s) ∨
    (configFault s = none ∧ messageTooLong s = false ∧ ∃ r tail,
      tail = (blakeData s).drop (128 * blakeLeading (blakeData s)) ∧
      r = blakeFinish (blakeAbsorb (blakeLeading (blakeData s))
            (blakeInit s.cfg.dlen s.cfg.klen, 0) (blakeData s)) tail ∧
      t = storeHex (hexText (serialize ⟨.blake2b, s.cfg.dlen, s.cfg.klen⟩ r.1))
            (closeContext ⟨.blake2b, s.cfg.dlen, s.cfg.klen⟩ r.1 r.2 (blakePad tail) s)) := by
  unfold hashBlake at h
  split at h
  · exact .inl ⟨_, ‹_›, by simpa using h.symm⟩
  · split at h
    · exact .inr (.inl ⟨‹_›, ‹_›, by simpa using h.symm⟩)
    · rename_i hc hl
      exact .inr (.inr ⟨hc, by simpa using hl, _, _, rfl, rfl, by simpa using h.symm⟩)

theorem serializeTemplate_cases {a : Alg} {s t : State} (h : serializeTemplate a s = .next t) :
    (openFor s a = true ∧ t = { storeDigest (serialize s.ctx s.h) s with code := .ok }) ∨
    (openFor s a = false ∧ t = raise .errSeq s) := by
  unfold serializeTemplate at h
  split at h <;> simp_all

theorem execEncodeDigest_cases {s t : State} (h : execEncodeDigest s = .next t) :
    (s.diglen ≠ 0 ∧
      t = { storeHex (hexText (prefixOf s.digest s.diglen.toNat)) s with code := .ok }) ∨
    (s.diglen = 0 ∧ t = raise .errSeq s) := by
  unfold execEncodeDigest at h
  split at h <;> simp_all

end Sys2Proof.Machine
end

