-- ==== Sys2Proof/Laws/Padding.lean ====
section
/-! SUPPORT. Lengths of paddings and digests, the preconditions of the templates on a concrete phase, and the
laws of absorbing blocks. -/

namespace Sys2Proof.Machine

/-- The block and length-field sizes of the MD family (R93). -/
theorem mdFamily_sizes {a : Alg} (h : a ∈ mdFamily) :
    (blockSize a = 64 ∧ lengthField a = 8) ∨ (blockSize a = 128 ∧ lengthField a = 16) := by
  revert a; decide

theorem mdFamily_alg : ∀ e ∈ mdEngines, e.alg ∈ mdFamily := by
  apply forall_mdEngines <;> decide

/-- An MD-family algorithm has an engine. -/
theorem mdFamily_engine {a : Alg} (h : a ∈ mdFamily) : ∃ e ∈ mdEngines, e.alg = a := by
  obtain rfl | h' := alg_engine a
  · simp [mdFamily] at h
  · exact h'

theorem mdPad_length (a : Alg) (tail : List Byte) (total : Nat) :
    (mdPad a tail total).length = tail.length + 1 + zeroFill a tail.length + lengthField a := by
  simp [mdPad]; omega

/-- The padding is one block or two (R124). -/
theorem mdPad_blocks {a : Alg} (h : a ∈ mdFamily) (tail : List Byte) (total : Nat)
    (hn : tail.length < blockSize a) :
    (mdPad a tail total).length =
      if tail.length + 1 + lengthField a ≤ blockSize a then blockSize a else 2 * blockSize a := by
  rw [mdPad_length]
  unfold zeroFill
  rcases mdFamily_sizes h with ⟨hb, hl⟩ | ⟨hb, hl⟩ <;> rw [hb] at hn <;> rw [hb, hl] <;> split <;>
    omega

theorem padCount_mdPad {a : Alg} (h : a ∈ mdFamily) (tail : List Byte) (total : Nat)
    (hn : tail.length < blockSize a) :
    padCount a (mdPad a tail total) =
      if tail.length + 1 + lengthField a ≤ blockSize a then 1 else 2 := by
  unfold padCount
  rw [mdPad_blocks h tail total hn]
  rcases mdFamily_sizes h with ⟨hb, hl⟩ | ⟨hb, hl⟩ <;> rw [hb, hl] <;> split <;> rfl

theorem tailTooLong_md {a : Alg} (h : a ∈ mdFamily) (n : Nat) :
    tailTooLong a n = decide (blockSize a ≤ n) := by
  cases a <;> first | rfl | simp [mdFamily] at h

@[simp] theorem tailOperand_length (s : State) (n : Nat) : (tailOperand s n).length = min n 128 := by
  simp [tailOperand]

theorem blakePad_length (tail : List Byte) (h : tail.length ≤ 128) : (blakePad tail).length = 128 := by
  simp [blakePad]; omega

/-- Zeros after a list are what its buffer is filled with anyway. -/
theorem fill_append_zeros {w n : Nat} (l : List (BitVec w)) (k : Nat) :
    (fill n (l ++ List.replicate k 0) : Vector (BitVec w) n) = fill n l := by
  apply Vector.ext
  intro i hi
  rw [fill_getElem _ _ hi, fill_getElem _ _ hi]
  simp only [List.getD_eq_getElem?_getD, List.getElem?_append]
  split
  · rfl
  · rename_i hl
    rw [List.getElem?_eq_none (l := l) (by omega)]
    simp only [List.getElem?_replicate]
    split <;> rfl

@[simp] theorem fill_nil (w n : Nat) : (fill n [] : Vector (BitVec w) n) = Vector.replicate n 0 := by
  apply Vector.ext
  intro i hi
  simp [fill_getElem]

theorem activeFor_true {s : State} {a : Alg} (hp : s.phase = .active) (ha : s.ctx.alg = a) :
    activeFor s a = true := (activeFor_iff _ _).2 ⟨hp, ha⟩

theorem activeFor_false {s : State} {a : Alg} (h : ¬(s.phase = .active ∧ s.ctx.alg = a)) :
    activeFor s a = false := by
  rw [← Bool.not_eq_true, activeFor_iff]; exact h

/-- Serialization looks at the algorithm alone, but for BLAKE2b's length. -/
theorem serialize_alg {c : Ctx} (h : c.alg ≠ .blake2b) (x y : Byte) (r : RegFile) :
    serialize c r = serialize ⟨c.alg, x, y⟩ r := by
  obtain ⟨a, d, k⟩ := c
  cases a <;> first | rfl | exact absurd rfl h

/-- The serialized state has the digest's length (R331). -/
theorem serialize_length (c : Ctx) (r : RegFile) :
    (serialize c r).length = min (digestLength c) (stateWords c.alg * wordBytes c.alg) := by
  have h : ∀ l : List Word64, (l.flatMap (wordToBytes c.alg)).length = l.length * wordBytes c.alg := by
    intro l
    induction l with
    | nil => simp
    | cons w l ih => rw [List.flatMap_cons, List.length_append, ih, wordToBytes_length,
        List.length_cons, Nat.add_mul]; omega
  rw [serialize, List.length_take, h]
  congr 2
  simp
  cases c.alg <;> decide

/-- A legal context's serialization is `digestLength` bytes, at most 64. -/
theorem serialize_length_legal {c : Ctx} (h : ctxLegal c) (r : RegFile) :
    (serialize c r).length = digestLength c ∧ digestLength c ≤ 64 := by
  rw [serialize_length]
  obtain ⟨a, d, k⟩ := c
  cases a <;> simp [ctxLegal, digestLength, stateWords, wordBytes] at h ⊢
  omega

/-! ### Absorbing blocks -/

/-- Absorbing two byte strings, the first a whole number of blocks. -/
theorem absorb_append (f : RegFile → List Byte → RegFile) (bs j k : Nat) (h : RegFile)
    (m p : List Byte) (hm : m.length = j * bs) :
    absorb f bs (j + k) h (m ++ p) = absorb f bs k (absorb f bs j h m) p := by
  induction j generalizing h m with
  | zero => simp at hm; subst hm; simp [absorb]
  | succ j ih =>
    rw [show j + 1 + k = (j + k) + 1 by omega]
    simp only [absorb]
    have hge : bs ≤ m.length := by rw [hm, Nat.add_mul]; omega
    rw [List.take_append_of_le_length hge, List.drop_append_of_le_length hge]
    apply ih
    rw [List.length_drop, hm, Nat.add_mul]; omega

/-- Only the first `j` blocks are looked at. -/
theorem absorb_take (f : RegFile → List Byte → RegFile) (bs j : Nat) (h : RegFile)
    (m : List Byte) : absorb f bs j h (m.take (j * bs)) = absorb f bs j h m := by
  induction j generalizing h m with
  | zero => rfl
  | succ j ih =>
    simp only [absorb]
    rw [List.take_take, Nat.min_eq_left (by rw [Nat.add_mul]; omega), List.drop_take,
      show (j + 1) * bs - bs = j * bs by rw [Nat.add_mul]; omega, ih]

theorem messageTail_length {a : Alg} (h : a ∈ mdFamily) (m : List Byte) :
    (messageTail a m).length = m.length % blockSize a ∧ (messageTail a m).length < blockSize a := by
  have hp : 0 < blockSize a := by rcases mdFamily_sizes h with ⟨hb, _⟩ | ⟨hb, _⟩ <;> omega
  have hl : (messageTail a m).length = m.length % blockSize a := by
    rw [messageTail, List.length_drop, ← Nat.mod_eq_sub_div_mul]
  exact ⟨hl, hl ▸ Nat.mod_lt _ hp⟩

/-- Absorbing the padded message is absorbing the message, then the padding of its tail (R126, R371). -/
theorem absorbAll_padMessage (e : MdEngine) (he : e ∈ mdEngines) (h : RegFile) (m : List Byte) :
    absorbAll e h (padMessage e.alg m) =
      absorbAll e (absorbAll e h m) (mdPad e.alg (messageTail e.alg m) m.length) := by
  have ha := mdFamily_alg e he
  have hp : 0 < blockSize e.alg := by rcases mdFamily_sizes ha with ⟨hb, _⟩ | ⟨hb, _⟩ <;> omega
  have hq : m.length / blockSize e.alg * blockSize e.alg ≤ m.length := Nat.div_mul_le_self _ _
  obtain ⟨k, hk⟩ : ∃ k,
      (mdPad e.alg (messageTail e.alg m) m.length).length = k * blockSize e.alg := by
    rw [mdPad_blocks ha _ _ (messageTail_length ha m).2]; split
    · exact ⟨1, by omega⟩
    · exact ⟨2, rfl⟩
  have hl : (padMessage e.alg m).length = (m.length / blockSize e.alg + k) * blockSize e.alg := by
    rw [padMessage, List.length_append, List.length_take, Nat.min_eq_left hq, Nat.add_mul, ← hk]; rfl
  unfold absorbAll
  rw [hl, Nat.mul_div_cancel _ hp, hk, Nat.mul_div_cancel _ hp, padMessage, absorb_append]
  · rw [absorb_take]; rfl
  · rw [List.length_take, Nat.min_eq_left hq]

/-- The counter after `k` blocks that are not the last (R296). -/
theorem blakeAbsorb_counter (k : Nat) (h : RegFile) (t : Word128) (m : List Byte) :
    (blakeAbsorb k (h, t) m).2 = t + BitVec.ofNat 128 (128 * k) := by
  induction k generalizing h t m with
  | zero => simp [blakeAbsorb]
  | succ k ih =>
    simp only [blakeAbsorb, blakeUpdate, ih]
    rw [BitVec.add_assoc, show 128 * (k + 1) = 128 + 128 * k by omega, BitVec.ofNat_add]; rfl

end Sys2Proof.Machine
end

