-- ==== Sys2Proof/Laws/Encoding.lean ====
section
/-! SUPPORT. The fields of an encoded command, and the code tables inverted. -/

namespace Sys2Proof

@[simp] theorem opOfCode_code (o : Op) : opOfCode o.code = some o := by cases o <;> decide

@[simp] theorem algOfCode_code (a : Alg) : algOfCode a.code = some a := by cases a <;> decide

/-- Codes 8 to 14 stand for no operation, and every other code for one (R94). -/
theorem opOfCode_none (c : BitVec 4) : opOfCode c = none ↔ 8 ≤ c.toNat ∧ c.toNat ≤ 14 := by
  revert c; decide

/-- Codes 7 and above stand for no algorithm (R92). -/
theorem algOfCode_none (c : BitVec 4) : algOfCode c = none ↔ 7 ≤ c.toNat := by revert c; decide

/-- A code stands for the operation whose code it is. -/
theorem opOfCode_some {c : BitVec 4} {o : Op} (h : opOfCode c = some o) : c = o.code := by
  revert c o; decide

/-- A code stands for the algorithm whose code it is. -/
theorem algOfCode_some {c : BitVec 4} {a : Alg} (h : algOfCode c = some a) : c = a.code := by
  revert c a; decide

/-- The count of an encoded command, shifted into place, has no bit in any other field. -/
theorem count_fields {n : Nat} (h : n ≤ 255) :
    rsvField (BitVec.ofNat 32 n <<< 8) = 0 ∧ nbField (BitVec.ofNat 32 n <<< 8) = BitVec.ofNat 8 n ∧
    algField (BitVec.ofNat 32 n <<< 8) = 0 ∧ opField (BitVec.ofNat 32 n <<< 8) = 0 ∧
    (BitVec.ofNat 32 n <<< 8) &&& countMask = 0 := by
  have key : ∀ n : Fin 256,
      rsvField (BitVec.ofNat 32 n <<< 8) = 0 ∧
      nbField (BitVec.ofNat 32 n <<< 8) = BitVec.ofNat 8 n ∧
      algField (BitVec.ofNat 32 n <<< 8) = 0 ∧ opField (BitVec.ofNat 32 n <<< 8) = 0 ∧
      (BitVec.ofNat 32 n <<< 8) &&& countMask = 0 := by decide +kernel
  exact key ⟨n, by omega⟩

/-- The fields of the codes, put in place, are the codes. -/
theorem code_fields (o : Op) (a : BitVec 4) :
    rsvField (a.setWidth 32 <<< 4 ||| o.code.setWidth 32) = 0 ∧
    nbField (a.setWidth 32 <<< 4 ||| o.code.setWidth 32) = 0 ∧
    algField (a.setWidth 32 <<< 4 ||| o.code.setWidth 32) = a ∧
    opField (a.setWidth 32 <<< 4 ||| o.code.setWidth 32) = o.code := by
  cases o <;> revert a <;> decide

theorem encodeWord_rsv (o : Op) (a : BitVec 4) {n : Nat} (h : n ≤ 255) :
    rsvField (encodeWord o a n) = 0 := by
  have hc := (count_fields h).1
  have hk := (code_fields o a).1
  simp only [rsvField, encodeWord, BitVec.or_assoc, BitVec.extractLsb'_or] at *
  rw [hc, hk]; rfl

theorem encodeWord_nb (o : Op) (a : BitVec 4) {n : Nat} (h : n ≤ 255) :
    nbField (encodeWord o a n) = BitVec.ofNat 8 n := by
  have hc := (count_fields h).2.1
  have hk := (code_fields o a).2.1
  simp only [nbField, encodeWord, BitVec.or_assoc, BitVec.extractLsb'_or] at *
  rw [hc, hk]; simp

theorem encodeWord_alg (o : Op) (a : BitVec 4) {n : Nat} (h : n ≤ 255) :
    algField (encodeWord o a n) = a := by
  have hc := (count_fields h).2.2.1
  have hk := (code_fields o a).2.2.1
  simp only [algField, encodeWord, BitVec.or_assoc, BitVec.extractLsb'_or] at *
  rw [hc, hk]; simp

theorem encodeWord_op (o : Op) (a : BitVec 4) {n : Nat} (h : n ≤ 255) :
    opField (encodeWord o a n) = o.code := by
  have hc := (count_fields h).2.2.2.1
  have hk := (code_fields o a).2.2.2
  simp only [opField, encodeWord, BitVec.or_assoc, BitVec.extractLsb'_or] at *
  rw [hc, hk]; simp

/-- Under the mask of the PAD and FINAL rows the count disappears (R99). -/
theorem encodeWord_countMask (o : Op) (a : BitVec 4) {n : Nat} (h : n ≤ 255) :
    encodeWord o a n &&& countMask = (a.setWidth 32 <<< 4 ||| o.code.setWidth 32) &&& countMask := by
  have hc := (count_fields h).2.2.2.2
  rw [encodeWord, BitVec.or_assoc]
  generalize BitVec.ofNat 32 n <<< 8 = x at hc
  generalize a.setWidth 32 <<< 4 ||| o.code.setWidth 32 = y
  ext i hi
  have := congrArg (fun z : BitVec 32 => z[i]) hc
  simp only [BitVec.getElem_and, BitVec.getElem_or] at this ⊢
  cases hx : x[i] <;> simp_all

end Sys2Proof
end

