-- ==== Sys2Proof/Laws/Memory.lean ====
section
/-! SUPPORT. The laws of message memory: read after write, and that every operation keeps the
canonical form. -/

namespace Sys2Proof.Machine

theorem lookup_write_same (m : Memory) (a : Nat) (b : Byte) :
    Memory.lookup (Memory.write m a b) a = some b := by
  induction m with
  | nil => simp [Memory.write, Memory.lookup]
  | cons c m ih =>
    obtain ⟨x, v⟩ := c
    by_cases h1 : a < x
    · simp [Memory.write, Memory.lookup, h1]
    · by_cases h2 : a = x
      · simp [Memory.write, Memory.lookup, h2]
      · simp [Memory.write, Memory.lookup, h1, h2, ih]

theorem lookup_write_other (m : Memory) {a x : Nat} (b : Byte) (h : x ≠ a) :
    Memory.lookup (Memory.write m a b) x = Memory.lookup m x := by
  induction m with
  | nil => simp [Memory.write, Memory.lookup, h]
  | cons c m ih =>
    obtain ⟨y, v⟩ := c
    by_cases h1 : a < y
    · simp [Memory.write, Memory.lookup, h1, h]
    · by_cases h2 : a = y
      · subst h2; simp [Memory.write, Memory.lookup, h]
      · simp [Memory.write, Memory.lookup, h1, h2, ih]

theorem risesAbove_write {lo : Nat} (m : Memory) {a : Nat} (b : Byte) (ha : lo < a)
    (h : Memory.risesAbove lo m = true) : Memory.risesAbove lo (Memory.write m a b) = true := by
  induction m generalizing lo with
  | nil => simp [Memory.write, Memory.risesAbove, ha]
  | cons c m ih =>
    obtain ⟨y, v⟩ := c
    simp only [Memory.risesAbove, Bool.and_eq_true, decide_eq_true_eq] at h
    by_cases h1 : a < y
    · simp [Memory.write, Memory.risesAbove, h1, ha, h.2]
    · by_cases h2 : a = y
      · subst h2; simp [Memory.write, Memory.risesAbove, h.1, h.2]
      · simpa [Memory.write, Memory.risesAbove, h1, h2, h.1] using ih (by omega) h.2

/-- A write keeps the canonical form; no other operation changes message memory but a power-on reset,
which leaves nothing listed. -/
theorem wf_write (m : Memory) (a : Nat) (b : Byte) (h : Memory.wf m = true) :
    Memory.wf (Memory.write m a b) = true := by
  cases m with
  | nil => rfl
  | cons c m =>
    obtain ⟨y, v⟩ := c
    simp only [Memory.wf] at h
    by_cases h1 : a < y
    · simp [Memory.write, Memory.wf, Memory.risesAbove, h1, h]
    · by_cases h2 : a = y
      · subst h2; simpa [Memory.write, Memory.wf] using h
      · simpa [Memory.write, Memory.wf, h1, h2] using risesAbove_write m b (by omega) h

theorem reset_memory_wf : Memory.wf State.reset.msg = true := rfl

/-- What a write can list: the written cell and the cells that were there. -/
theorem mem_write {m : Memory} {a : Nat} {b : Byte} {c : Host.Cell} (h : c ∈ Memory.write m a b) :
    c = (a, b) ∨ c ∈ m := by
  induction m with
  | nil => simpa [Memory.write] using h
  | cons d m ih =>
    obtain ⟨y, v⟩ := d
    simp only [Memory.write] at h
    split at h
    · simpa using h
    · split at h
      · subst_vars
        rcases List.mem_cons.1 h with h | h
        · exact .inl h
        · exact .inr (List.mem_cons_of_mem _ h)
      · rcases List.mem_cons.1 h with h | h
        · exact .inr (h ▸ List.mem_cons_self)
        · exact (ih h).imp id (List.mem_cons_of_mem _)

/-- A byte of message memory depends on the written cells and on the power-on count alone. -/
theorem msgByte_congr {s t : State} (hm : t.msg = s.msg) (hp : t.powerOns = s.powerOns) (a : Nat) :
    msgByte t a = msgByte s a := by
  simp [msgByte, hm, hp]

theorem memRead_congr {s t : State} (hm : t.msg = s.msg) (hp : t.powerOns = s.powerOns) (a n : Nat) :
    memRead t a n = memRead s a n := by
  simp [memRead, msgByte_congr hm hp]

@[simp] theorem memRead_length (s : State) (a n : Nat) : (memRead s a n).length = n := by
  simp [memRead]

end Sys2Proof.Machine
end

