-- ==== Sys2Proof/Laws/Step.lean ====
section
/-! SUPPORT. What one transition can do, once per function of Machine/Engine.lean and Machine/Aperture.lean:
provers cite these instead of unfolding `step`. -/

namespace Sys2Proof.Machine

/-- `exec` always answers a next state: no command faults and none is refused (R403, R458). -/
theorem exec_next (i : Instr) (s : State) : ∃ t, exec i s = .next t := by
  have md (e : MdEngine) (n : Nat) :
      (∃ t, initMd e s = .next t) ∧ (∃ t, compressMd e s = .next t) ∧
      (∃ t, padMd e.alg n s = .next t) ∧ (∃ t, finalMd e n s = .next t) ∧
      (∃ t, hashMd e s = .next t) := by
    refine ⟨⟨_, rfl⟩, ?_, ?_, ?_, ?_⟩
    · unfold compressMd; split <;> exact ⟨_, rfl⟩
    · unfold padMd; repeat' split
      all_goals exact ⟨_, rfl⟩
    · unfold finalMd; repeat' split
      all_goals exact ⟨_, rfl⟩
    · unfold hashMd; split <;> exact ⟨_, rfl⟩
  have blake (n : Nat) :
      (∃ t, initBlake s = .next t) ∧ (∃ t, compressBlake s = .next t) ∧
      (∃ t, padBlake n s = .next t) ∧ (∃ t, finalBlake n s = .next t) ∧
      (∃ t, hashBlake s = .next t) := by
    refine ⟨?_, ?_, ?_, ?_, ?_⟩
    · unfold initBlake; split <;> exact ⟨_, rfl⟩
    · unfold compressBlake; split <;> exact ⟨_, rfl⟩
    · unfold padBlake; repeat' split
      all_goals exact ⟨_, rfl⟩
    · unfold finalBlake; repeat' split
      all_goals exact ⟨_, rfl⟩
    · unfold hashBlake; repeat' split
      all_goals exact ⟨_, rfl⟩
  have ser (a : Alg) : ∃ t, serializeTemplate a s = .next t := by
    unfold serializeTemplate; split <;> exact ⟨_, rfl⟩
  rcases instr_family i with rfl | rfl | rfl | ⟨a, rfl⟩ | ⟨a, rfl⟩ | ⟨a, n, rfl⟩ | ⟨a, n, rfl⟩ |
    ⟨a, rfl⟩ | ⟨a, rfl⟩
  · exact ⟨_, rfl⟩
  · exact ⟨_, rfl⟩
  · show ∃ t, execEncodeDigest s = .next t
    unfold execEncodeDigest; split <;> exact ⟨_, rfl⟩
  · obtain rfl | ⟨e, he, rfl⟩ := alg_engine a
    · exact (blake 0).1
    · rw [exec_initOf s e he]; exact (md e 0).1
  · obtain rfl | ⟨e, he, rfl⟩ := alg_engine a
    · exact (blake 0).2.1
    · rw [exec_compressOf s e he]; exact (md e 0).2.1
  · obtain rfl | ⟨e, he, rfl⟩ := alg_engine a
    · exact (blake n).2.2.1
    · rw [exec_padOf n s e he]; exact (md e n).2.2.1
  · obtain rfl | ⟨e, he, rfl⟩ := alg_engine a
    · exact (blake n).2.2.2.1
    · rw [exec_finalOf n s e he]; exact (md e n).2.2.2.1
  · rw [exec_serializeOf]; exact ser a
  · obtain rfl | ⟨e, he, rfl⟩ := alg_engine a
    · exact (blake 0).2.2.2.2
    · rw [exec_hashOf s e he]; exact (md e 0).2.2.2.2

/-- The engine step completes an illegal word with ERR_ILLEGAL, and any other with its rule (R360). -/
theorem engineStep_cases {s t : State} (h : engineStep s = .next t) :
    (∃ r, decode s.pend = .error r ∧ t = complete (raise .errIllegal s)) ∨
    (∃ i u, decode s.pend = .ok i ∧ exec i s = .next u ∧ t = complete u) := by
  unfold engineStep at h
  split at h
  · rename_i r hd
    exact .inl ⟨r, hd, by simpa using h.symm⟩
  · rename_i i hd
    obtain ⟨u, hu⟩ := exec_next i s
    rw [hu] at h
    exact .inr ⟨i, u, hd, hu, by simpa using h.symm⟩

/-- The engine's turn never faults and is never refused. -/
theorem engineTurn_next (s : State) : ∃ t, engineTurn s = .next t := by
  unfold engineTurn engineStep
  split
  · split
    · exact ⟨_, rfl⟩
    · rename_i i _
      obtain ⟨u, hu⟩ := exec_next i s
      rw [hu]; exact ⟨_, rfl⟩
  · exact ⟨_, rfl⟩

theorem engineTurn_cases {s t : State} (h : engineTurn s = .next t) :
    (s.busy = true ∧ engineStep s = .next t) ∨ (s.busy = false ∧ t = s) := by
  unfold engineTurn at h
  split at h
  · exact .inl ⟨‹_›, h⟩
  · rename_i hb
    exact .inr ⟨by simpa using hb, by simpa using h.symm⟩

/-- What a host access that is a transition does (R62, R66). -/
theorem performAccess_cases {a : HostAccess} {s t : State} (h : performAccess a s = .next t) :
    (∃ v, t = returned v s) ∨
    (∃ w offset, a = .write 32 offset w ∧ t = writeReg s w (regAt offset)) ∨
    (∃ addr b, a = .msgWrite addr b ∧ addr < s.msgcap.toNat ∧
      t = { s with msg := Memory.write s.msg addr b }) := by
  cases a with
  | read width offset =>
    simp only [performAccess] at h
    split at h
    · cases h
    · exact .inl ⟨_, by simpa using h.symm⟩
  | write width offset w =>
    simp only [performAccess] at h
    split at h
    · cases h
    · rename_i hr
      have hw : width = 32 := by
        by_contra hne
        simp [apertureRefusal, hne] at hr
      subst hw
      exact .inr (.inl ⟨w, offset, rfl, by simpa using h.symm⟩)
  | msgRead addr =>
    simp only [performAccess] at h
    split at h
    · cases h
    · exact .inl ⟨_, by simpa using h.symm⟩
  | msgWrite addr b =>
    simp only [performAccess] at h
    split at h
    · cases h
    · exact .inr (.inr ⟨addr, b, rfl, by omega, by simpa using h.symm⟩)

theorem hostAccess_cases {a : HostAccess} {s t : State} (h : hostAccess a s = .next t) :
    (s.busy = false ∨ isStatusPoll a = true) ∧ performAccess a s = .next t := by
  unfold hostAccess at h
  split at h
  · cases h
  · rename_i hb
    refine ⟨?_, h⟩
    cases h1 : s.busy <;> cases h2 : isStatusPoll a <;> simp_all

/-- One transition is an engine's turn, a host access or a power-on reset (R74, R441). -/
theorem step_cases {s t : State} (h : step s = .next t) :
    (s.schedule = [] ∧ engineTurn s = .next t) ∨
    (∃ rest, s.schedule = .engine :: rest ∧ engineTurn { s with schedule := rest } = .next t) ∨
    (∃ a rest, s.schedule = .access a :: rest ∧
      hostAccess a { s with schedule := rest } = .next t) ∨
    (∃ rest, s.schedule = .powerOn :: rest ∧ t = powerOnReset { s with schedule := rest }) := by
  unfold step transition at h
  split at h
  · exact .inl ⟨‹_›, h⟩
  · rename_i e rest hs
    cases e with
    | access a => exact .inr (.inr (.inl ⟨a, rest, hs, h⟩))
    | engine => exact .inr (.inl ⟨rest, hs, h⟩)
    | powerOn => exact .inr (.inr (.inr ⟨rest, hs, by simpa [runEvent] using h.symm⟩))

end Sys2Proof.Machine
end

