-- ==== Sys2Proof/Laws/Effects.lean ====
section
/-! SUPPORT. Everything a command can do, said once: `exec_effect`. Provers take a next state apart with it
instead of unfolding the meanings. -/

namespace Sys2Proof.Machine

@[simp] theorem fields_initOf (a : Alg) : (initOf a).fields = (.init, a, 0) := by cases a <;> rfl
@[simp] theorem fields_compressOf (a : Alg) : (compressOf a).fields = (.compress, a, 0) := by cases a <;> rfl
@[simp] theorem fields_serializeOf (a : Alg) : (serializeOf a).fields = (.serialize, a, 0) := by cases a <;> rfl
@[simp] theorem fields_hashOf (a : Alg) : (hashOf a).fields = (.hash, a, 0) := by cases a <;> rfl
@[simp] theorem fields_padOf (a : Alg) (n : Nat) : (padOf a n).fields = (.pad, a, n) := by
  cases a <;> rfl
@[simp] theorem fields_finalOf (a : Alg) (n : Nat) : (finalOf a n).fields = (.final, a, n) := by
  cases a <;> rfl
@[simp] theorem fields_nop : Instr.fields .nop = (.nop, .md4, 0) := rfl
@[simp] theorem fields_sreset : Instr.fields .sreset = (.sreset, .md4, 0) := rfl
@[simp] theorem fields_encodeDigest : Instr.fields .encodeDigest = (.encodeDigest, .md4, 0) := rfl
@[simp] theorem fields_initBlake2b : Instr.fields .initBlake2b = (.init, .blake2b, 0) := rfl
@[simp] theorem fields_compressBlake2b : Instr.fields .compressBlake2b = (.compress, .blake2b, 0) := rfl
@[simp] theorem fields_hashBlake2b : Instr.fields .hashBlake2b = (.hash, .blake2b, 0) := rfl
@[simp] theorem fields_padBlake2b (n : Nat) : Instr.fields (.padBlake2b n) = (.pad, .blake2b, n) := rfl
@[simp] theorem fields_finalBlake2b (n : Nat) : Instr.fields (.finalBlake2b n) = (.final, .blake2b, n) := rfl

/-! ### Which checks fail -/

theorem seqFails_phase (s : State) (a : Alg) :
    (s.phase != .active || s.ctx.alg != a) = !activeFor s a := by
  simp only [activeFor]; cases s.phase <;> cases s.ctx.alg <;> cases a <;> rfl

theorem seqFails_open (s : State) (a : Alg) :
    (s.phase == .idle || s.ctx.alg != a) = !openFor s a := by
  simp only [openFor]; cases s.phase <;> cases s.ctx.alg <;> cases a <;> rfl

theorem seqFails_compressOf (s : State) (a : Alg) : seqFails (compressOf a) s = !activeFor s a := by
  rw [← seqFails_phase]; cases a <;> rfl

theorem seqFails_padOf (s : State) (a : Alg) (n : Nat) : seqFails (padOf a n) s = !activeFor s a := by
  rw [← seqFails_phase]; cases a <;> rfl

theorem seqFails_finalOf (s : State) (a : Alg) (n : Nat) :
    seqFails (finalOf a n) s = !activeFor s a := by
  rw [← seqFails_phase]; cases a <;> rfl

theorem seqFails_serializeOf (s : State) (a : Alg) : seqFails (serializeOf a) s = !openFor s a := by
  rw [← seqFails_open]; cases a <;> rfl

theorem lenFails_md (s : State) {a : Alg} (h : a ∈ mdFamily) (n : Nat) :
    lenFails (padOf a n) s = decide (blockSize a ≤ n) ∧
    lenFails (finalOf a n) s = decide (blockSize a ≤ n) := by
  cases a <;> first | exact ⟨rfl, rfl⟩ | simp [mdFamily] at h

/-! ### Everything a command can do -/

/-- `Effect i s t`: from `s`, the command `i` can answer the next state `t`. -/
inductive Effect (i : Instr) (s : State) : State → Prop
  | nop (h : i = .nop) : Effect i s { s with code := .ok }
  | sreset (h : i = .sreset) (t : State) (ht : execSreset s = .next t) : Effect i s t
  | errSeq (h : seqFails i s = true) : Effect i s (raise .errSeq s)
  | errLen (a : Alg) (n : Nat) (h : i = padOf a n ∨ i = finalOf a n) (ha : activeFor s a = true)
      (hl : lenFails i s = true) : Effect i s (raise .errLen s)
  | errMlen (a : Alg) (h : i = hashOf a) (hm : messageTooLong s = true)
      (hc : a = .blake2b → configFault s = none) : Effect i s (raise .errMlen s)
  | errConfig (h : i = .initBlake2b ∨ i = .hashBlake2b) (c : Code) (hc : configFault s = some c) :
      Effect i s (configError c s)
  | encode (h : i = .encodeDigest) (hd : s.diglen ≠ 0) :
      Effect i s { storeHex (hexText (prefixOf s.digest s.diglen.toNat)) s with code := .ok }
  | init (e : MdEngine) (he : e ∈ mdEngines) (h : i = initOf e.alg) :
      Effect i s (openContext ⟨e.alg, 0, 0⟩ e.iv s)
  | initBlake (h : i = .initBlake2b) (hc : configFault s = none) :
      Effect i s (openContext ⟨.blake2b, s.cfg.dlen, s.cfg.klen⟩ (blakeInit s.cfg.dlen s.cfg.klen) s)
  | compress (e : MdEngine) (he : e ∈ mdEngines) (h : i = compressOf e.alg)
      (ha : activeFor s e.alg = true) :
      Effect i s
        { s with
          h := e.compress s.h (blockOperand s e.alg)
          t := advanced s (blockSize e.alg)
          code := .ok }
  | compressBlake (h : i = .compressBlake2b) (ha : activeFor s .blake2b = true) :
      Effect i s
        { s with
          h := (blakeUpdate (s.h, s.t) (blockOperand s .blake2b)).1
          t := (blakeUpdate (s.h, s.t) (blockOperand s .blake2b)).2
          code := .ok }
  | pad (a : Alg) (n : Nat) (hm : a ∈ mdFamily) (h : i = padOf a n) (ha : activeFor s a = true)
      (hn : n < blockSize a) :
      Effect i s
        { storePadding a (mdPad a (tailOperand s n) (advanced s n).toNat) s with code := .ok }
  | padBlake (n : Nat) (h : i = .padBlake2b n) (ha : activeFor s .blake2b = true) (hn : n ≤ 128) :
      Effect i s { storePadding .blake2b (blakePad (tailOperand s n)) s with code := .ok }
  | final (e : MdEngine) (n : Nat) (he : e ∈ mdEngines) (h : i = finalOf e.alg n)
      (ha : activeFor s e.alg = true) (hn : n < blockSize e.alg) :
      Effect i s
        (closeContext s.ctx
          (absorbAll e s.h (mdPad e.alg (tailOperand s n) (advanced s n).toNat)) (advanced s n)
          (mdPad e.alg (tailOperand s n) (advanced s n).toNat) s)
  | finalBlake (n : Nat) (h : i = .finalBlake2b n) (ha : activeFor s .blake2b = true) (hn : n ≤ 128)
      (hg : emptyTailRefused n s = false) :
      Effect i s
        (closeContext s.ctx (blakeFinish (s.h, s.t) (tailOperand s n)).1
          (blakeFinish (s.h, s.t) (tailOperand s n)).2 (blakePad (tailOperand s n)) s)
  | serialize (a : Alg) (h : i = serializeOf a) (ho : openFor s a = true) :
      Effect i s { storeDigest (serialize s.ctx s.h) s with code := .ok }
  | hash (e : MdEngine) (he : e ∈ mdEngines) (h : i = hashOf e.alg) (hm : messageTooLong s = false)
      (p : List Byte) (r : RegFile)
      (hp : p = mdPad e.alg (messageTail e.alg (message s)) s.mlen.toNat)
      (hr : r = absorbAll e (absorbAll e e.iv (message s)) p) :
      Effect i s
        (storeHex (hexText (serialize ⟨e.alg, 0, 0⟩ r))
          (closeContext ⟨e.alg, 0, 0⟩ r (s.mlen.setWidth 128) p s))
  | hashBlake (h : i = .hashBlake2b) (hc : configFault s = none) (hm : messageTooLong s = false)
      (r : RegFile × Word128) (tail : List Byte)
      (ht : tail = (blakeData s).drop (128 * blakeLeading (blakeData s)))
      (hr : r = blakeFinish (blakeAbsorb (blakeLeading (blakeData s))
        (blakeInit s.cfg.dlen s.cfg.klen, 0) (blakeData s)) tail) :
      Effect i s
        (storeHex (hexText (serialize ⟨.blake2b, s.cfg.dlen, s.cfg.klen⟩ r.1))
          (closeContext ⟨.blake2b, s.cfg.dlen, s.cfg.klen⟩ r.1 r.2 (blakePad tail) s))

/-- What a command can do (R360, R380). -/
theorem exec_effect {i : Instr} {s t : State} (h : exec i s = .next t) : Effect i s t := by
  rcases instr_family i with rfl | rfl | rfl | ⟨a, rfl⟩ | ⟨a, rfl⟩ | ⟨a, n, rfl⟩ | ⟨a, n, rfl⟩ |
    ⟨a, rfl⟩ | ⟨a, rfl⟩
  · cases h; exact .nop rfl
  · exact .sreset rfl _ h
  · obtain ⟨h1, rfl⟩ | ⟨h1, rfl⟩ := execEncodeDigest_cases h
    · exact .encode rfl h1
    · exact .errSeq (by simp [seqFails, h1])
  · obtain rfl | ⟨e, he, rfl⟩ := alg_engine a
    · obtain ⟨hc, rfl⟩ | ⟨c, hc, rfl⟩ := initBlake_cases h
      · exact .initBlake rfl hc
      · exact .errConfig (.inl rfl) c hc
    · rw [exec_initOf s e he] at h; cases h; exact .init e he rfl
  · obtain rfl | ⟨e, he, rfl⟩ := alg_engine a
    · obtain ⟨hc, rfl⟩ | ⟨hc, rfl⟩ := compressBlake_cases h
      · exact .compressBlake rfl hc
      · exact .errSeq (by rw [seqFails_compressOf, hc]; rfl)
    · rw [exec_compressOf s e he] at h
      obtain ⟨hc, rfl⟩ | ⟨hc, rfl⟩ := compressMd_cases h
      · exact .compress e he rfl hc
      · exact .errSeq (by rw [seqFails_compressOf, hc]; rfl)
  · obtain rfl | ⟨e, he, rfl⟩ := alg_engine a
    · obtain ⟨hc, hn, rfl⟩ | ⟨hc, hn, rfl⟩ | ⟨hc, rfl⟩ := padBlake_cases h
      · exact .padBlake n rfl hc hn
      · exact .errLen .blake2b n (.inl rfl) hc (decide_eq_true hn)
      · exact .errSeq (by rw [seqFails_padOf, hc]; rfl)
    · rw [exec_padOf n s e he] at h
      have ha := mdFamily_alg e he
      obtain ⟨hc, hn, rfl⟩ | ⟨hc, hn, rfl⟩ | ⟨hc, rfl⟩ := padMd_cases h
      · exact .pad e.alg n ha rfl hc (by rw [tailTooLong_md ha] at hn; simpa using hn)
      · exact .errLen e.alg n (.inl rfl) hc (by rw [(lenFails_md s ha n).1, ← tailTooLong_md ha]; exact hn)
      · exact .errSeq (by rw [seqFails_padOf, hc]; rfl)
  · obtain rfl | ⟨e, he, rfl⟩ := alg_engine a
    · obtain ⟨hc, hn, hl, rfl⟩ | ⟨hc, hn, rfl⟩ | ⟨hc, rfl⟩ := finalBlake_cases h
      · exact .finalBlake n rfl hc hn hl
      · refine .errLen .blake2b n (.inr rfl) hc ?_
        show (decide (128 < n) || emptyTailRefused n s) = true
        rcases hn with hn | hn <;> simp [hn]
      · exact .errSeq (by rw [seqFails_finalOf, hc]; rfl)
    · rw [exec_finalOf n s e he] at h
      have ha := mdFamily_alg e he
      obtain ⟨hc, hn, rfl⟩ | ⟨hc, hn, rfl⟩ | ⟨hc, rfl⟩ := finalMd_cases h
      · exact .final e n he rfl hc (by rw [tailTooLong_md ha] at hn; simpa using hn)
      · exact .errLen e.alg n (.inr rfl) hc (by rw [(lenFails_md s ha n).2, ← tailTooLong_md ha]; exact hn)
      · exact .errSeq (by rw [seqFails_finalOf, hc]; rfl)
  · rw [exec_serializeOf] at h
    obtain ⟨hc, rfl⟩ | ⟨hc, rfl⟩ := serializeTemplate_cases h
    · exact .serialize a rfl hc
    · exact .errSeq (by rw [seqFails_serializeOf, hc]; rfl)
  · obtain rfl | ⟨e, he, rfl⟩ := alg_engine a
    · obtain ⟨c, hc, rfl⟩ | ⟨hc, hm, rfl⟩ | ⟨hc, hm, r, tail, h1, h2, rfl⟩ := hashBlake_cases h
      · exact .errConfig (.inr rfl) c hc
      · exact .errMlen .blake2b rfl hm (fun _ => hc)
      · exact .hashBlake rfl hc hm r tail h1 h2
    · rw [exec_hashOf s e he] at h
      obtain ⟨hm, rfl⟩ | ⟨hm, p, r, h1, h2, rfl⟩ := hashMd_cases h
      · exact .errMlen e.alg rfl hm (fun hb => absurd hb (mdEngine_not_blake e he))
      · exact .hash e he rfl hm p r h1 h2

end Sys2Proof.Machine
end

