-- ==== Sys2Proof/Laws/PerInstr.lean ====
section
/-! SUPPORT. One family of statements per instruction: the instruction's row of
spec/opcode_table.json (R99) holds its operation and its algorithm, and its encoding, where it has one,
spells exactly that row. -/

namespace Sys2Proof.Laws.TableRow

/-- The row of `i`: it is in the table, carries `i`'s fields, and `encode i` spells it. -/
def Statement (i : Instr) : Prop :=
  ∃ r ∈ opcodeTable, r.op = i.fields.1 ∧ r.alg = i.fields.2.1 ∧
    (i.WellFormed → r.spells (encode i) = true)

/-- The row of a command without a byte count. -/
theorem of_full {i : Instr} (r : OpcodeRow) (hr : r ∈ opcodeTable) (ho : r.op = i.fields.1)
    (ha : r.alg = i.fields.2.1) (hs : r.spells (encode i) = true) : Statement i :=
  ⟨r, hr, ho, ha, fun _ => hs⟩

/-- The row of a command with a byte count `n`. -/
theorem of_count {i : Instr} (r : OpcodeRow) (hr : r ∈ opcodeTable) (ho : r.op = i.fields.1)
    (ha : r.alg = i.fields.2.1) (hm : r.mask = countMask) (hn : i.WellFormed → i.fields.2.2 ≤ 255)
    (hp : (r.alg.code.setWidth 32 <<< 4 ||| r.op.code.setWidth 32) &&& countMask = r.pattern) :
    Statement i := by
  refine ⟨r, hr, ho, ha, fun hw => ?_⟩
  have h := encodeWord_countMask i.fields.1 i.fields.2.1.code (hn hw)
  rw [OpcodeRow.spells, beq_iff_eq, hm, encode, h, ← ho, ← ha, hp]

theorem nop : Statement .nop :=
  of_full ⟨"NOP", .nop, .md4, 0x00000000, fullMask⟩ (by decide) rfl rfl (by decide)

theorem initMd4 : Statement .initMd4 :=
  of_full ⟨"INIT.MD4", .init, .md4, 0x00000001, fullMask⟩ (by decide) rfl rfl (by decide)

theorem initMd5 : Statement .initMd5 :=
  of_full ⟨"INIT.MD5", .init, .md5, 0x00000011, fullMask⟩ (by decide) rfl rfl (by decide)

theorem initSha1 : Statement .initSha1 :=
  of_full ⟨"INIT.SHA1", .init, .sha1, 0x00000021, fullMask⟩ (by decide) rfl rfl (by decide)

theorem initSha256 : Statement .initSha256 :=
  of_full ⟨"INIT.SHA256", .init, .sha256, 0x00000031, fullMask⟩ (by decide) rfl rfl (by decide)

theorem initSha512 : Statement .initSha512 :=
  of_full ⟨"INIT.SHA512", .init, .sha512, 0x00000041, fullMask⟩ (by decide) rfl rfl (by decide)

theorem initRipemd160 : Statement .initRipemd160 :=
  of_full ⟨"INIT.RIPEMD160", .init, .ripemd160, 0x00000051, fullMask⟩ (by decide) rfl rfl (by decide)

theorem initBlake2b : Statement .initBlake2b :=
  of_full ⟨"INIT.BLAKE2B", .init, .blake2b, 0x00000061, fullMask⟩ (by decide) rfl rfl (by decide)

theorem compressMd4 : Statement .compressMd4 :=
  of_full ⟨"COMPRESS.MD4", .compress, .md4, 0x00000002, fullMask⟩ (by decide) rfl rfl (by decide)

theorem compressMd5 : Statement .compressMd5 :=
  of_full ⟨"COMPRESS.MD5", .compress, .md5, 0x00000012, fullMask⟩ (by decide) rfl rfl (by decide)

theorem compressSha1 : Statement .compressSha1 :=
  of_full ⟨"COMPRESS.SHA1", .compress, .sha1, 0x00000022, fullMask⟩ (by decide) rfl rfl (by decide)

theorem compressSha256 : Statement .compressSha256 :=
  of_full ⟨"COMPRESS.SHA256", .compress, .sha256, 0x00000032, fullMask⟩ (by decide) rfl rfl (by decide)

theorem compressSha512 : Statement .compressSha512 :=
  of_full ⟨"COMPRESS.SHA512", .compress, .sha512, 0x00000042, fullMask⟩ (by decide) rfl rfl (by decide)

theorem compressRipemd160 : Statement .compressRipemd160 :=
  of_full ⟨"COMPRESS.RIPEMD160", .compress, .ripemd160, 0x00000052, fullMask⟩ (by decide) rfl rfl (by decide)

theorem compressBlake2b : Statement .compressBlake2b :=
  of_full ⟨"COMPRESS.BLAKE2B", .compress, .blake2b, 0x00000062, fullMask⟩ (by decide) rfl rfl (by decide)

theorem padMd4 (n : Nat) : Statement (.padMd4 n) :=
  of_count ⟨"PAD.MD4_n", .pad, .md4, 0x00000003, countMask⟩ (by decide) rfl rfl rfl
    (fun h => of_decide_eq_true h) (by decide)

theorem padMd5 (n : Nat) : Statement (.padMd5 n) :=
  of_count ⟨"PAD.MD5_n", .pad, .md5, 0x00000013, countMask⟩ (by decide) rfl rfl rfl
    (fun h => of_decide_eq_true h) (by decide)

theorem padSha1 (n : Nat) : Statement (.padSha1 n) :=
  of_count ⟨"PAD.SHA1_n", .pad, .sha1, 0x00000023, countMask⟩ (by decide) rfl rfl rfl
    (fun h => of_decide_eq_true h) (by decide)

theorem padSha256 (n : Nat) : Statement (.padSha256 n) :=
  of_count ⟨"PAD.SHA256_n", .pad, .sha256, 0x00000033, countMask⟩ (by decide) rfl rfl rfl
    (fun h => of_decide_eq_true h) (by decide)

theorem padSha512 (n : Nat) : Statement (.padSha512 n) :=
  of_count ⟨"PAD.SHA512_n", .pad, .sha512, 0x00000043, countMask⟩ (by decide) rfl rfl rfl
    (fun h => of_decide_eq_true h) (by decide)

theorem padRipemd160 (n : Nat) : Statement (.padRipemd160 n) :=
  of_count ⟨"PAD.RIPEMD160_n", .pad, .ripemd160, 0x00000053, countMask⟩ (by decide) rfl rfl rfl
    (fun h => of_decide_eq_true h) (by decide)

theorem padBlake2b (n : Nat) : Statement (.padBlake2b n) :=
  of_count ⟨"PAD.BLAKE2B_n", .pad, .blake2b, 0x00000063, countMask⟩ (by decide) rfl rfl rfl
    (fun h => of_decide_eq_true h) (by decide)

theorem finalMd4 (n : Nat) : Statement (.finalMd4 n) :=
  of_count ⟨"FINAL.MD4_n", .final, .md4, 0x00000004, countMask⟩ (by decide) rfl rfl rfl
    (fun h => of_decide_eq_true h) (by decide)

theorem finalMd5 (n : Nat) : Statement (.finalMd5 n) :=
  of_count ⟨"FINAL.MD5_n", .final, .md5, 0x00000014, countMask⟩ (by decide) rfl rfl rfl
    (fun h => of_decide_eq_true h) (by decide)

theorem finalSha1 (n : Nat) : Statement (.finalSha1 n) :=
  of_count ⟨"FINAL.SHA1_n", .final, .sha1, 0x00000024, countMask⟩ (by decide) rfl rfl rfl
    (fun h => of_decide_eq_true h) (by decide)

theorem finalSha256 (n : Nat) : Statement (.finalSha256 n) :=
  of_count ⟨"FINAL.SHA256_n", .final, .sha256, 0x00000034, countMask⟩ (by decide) rfl rfl rfl
    (fun h => of_decide_eq_true h) (by decide)

theorem finalSha512 (n : Nat) : Statement (.finalSha512 n) :=
  of_count ⟨"FINAL.SHA512_n", .final, .sha512, 0x00000044, countMask⟩ (by decide) rfl rfl rfl
    (fun h => of_decide_eq_true h) (by decide)

theorem finalRipemd160 (n : Nat) : Statement (.finalRipemd160 n) :=
  of_count ⟨"FINAL.RIPEMD160_n", .final, .ripemd160, 0x00000054, countMask⟩ (by decide) rfl rfl rfl
    (fun h => of_decide_eq_true h) (by decide)

theorem finalBlake2b (n : Nat) : Statement (.finalBlake2b n) :=
  of_count ⟨"FINAL.BLAKE2B_n", .final, .blake2b, 0x00000064, countMask⟩ (by decide) rfl rfl rfl
    (fun h => of_decide_eq_true h) (by decide)

theorem serializeMd4 : Statement .serializeMd4 :=
  of_full ⟨"SERIALIZE.MD4", .serialize, .md4, 0x00000005, fullMask⟩ (by decide) rfl rfl (by decide)

theorem serializeMd5 : Statement .serializeMd5 :=
  of_full ⟨"SERIALIZE.MD5", .serialize, .md5, 0x00000015, fullMask⟩ (by decide) rfl rfl (by decide)

theorem serializeSha1 : Statement .serializeSha1 :=
  of_full ⟨"SERIALIZE.SHA1", .serialize, .sha1, 0x00000025, fullMask⟩ (by decide) rfl rfl (by decide)

theorem serializeSha256 : Statement .serializeSha256 :=
  of_full ⟨"SERIALIZE.SHA256", .serialize, .sha256, 0x00000035, fullMask⟩ (by decide) rfl rfl (by decide)

theorem serializeSha512 : Statement .serializeSha512 :=
  of_full ⟨"SERIALIZE.SHA512", .serialize, .sha512, 0x00000045, fullMask⟩ (by decide) rfl rfl (by decide)

theorem serializeRipemd160 : Statement .serializeRipemd160 :=
  of_full ⟨"SERIALIZE.RIPEMD160", .serialize, .ripemd160, 0x00000055, fullMask⟩ (by decide) rfl rfl (by decide)

theorem serializeBlake2b : Statement .serializeBlake2b :=
  of_full ⟨"SERIALIZE.BLAKE2B", .serialize, .blake2b, 0x00000065, fullMask⟩ (by decide) rfl rfl (by decide)

theorem encodeDigest : Statement .encodeDigest :=
  of_full ⟨"ENCODE", .encodeDigest, .md4, 0x00000006, fullMask⟩ (by decide) rfl rfl (by decide)

theorem hashMd4 : Statement .hashMd4 :=
  of_full ⟨"HASH.MD4", .hash, .md4, 0x00000007, fullMask⟩ (by decide) rfl rfl (by decide)

theorem hashMd5 : Statement .hashMd5 :=
  of_full ⟨"HASH.MD5", .hash, .md5, 0x00000017, fullMask⟩ (by decide) rfl rfl (by decide)

theorem hashSha1 : Statement .hashSha1 :=
  of_full ⟨"HASH.SHA1", .hash, .sha1, 0x00000027, fullMask⟩ (by decide) rfl rfl (by decide)

theorem hashSha256 : Statement .hashSha256 :=
  of_full ⟨"HASH.SHA256", .hash, .sha256, 0x00000037, fullMask⟩ (by decide) rfl rfl (by decide)

theorem hashSha512 : Statement .hashSha512 :=
  of_full ⟨"HASH.SHA512", .hash, .sha512, 0x00000047, fullMask⟩ (by decide) rfl rfl (by decide)

theorem hashRipemd160 : Statement .hashRipemd160 :=
  of_full ⟨"HASH.RIPEMD160", .hash, .ripemd160, 0x00000057, fullMask⟩ (by decide) rfl rfl (by decide)

theorem hashBlake2b : Statement .hashBlake2b :=
  of_full ⟨"HASH.BLAKE2B", .hash, .blake2b, 0x00000067, fullMask⟩ (by decide) rfl rfl (by decide)

theorem sreset : Statement .sreset :=
  of_full ⟨"SRESET", .sreset, .md4, 0x0000000F, fullMask⟩ (by decide) rfl rfl (by decide)

end Sys2Proof.Laws.TableRow
end

