-- ==== Sys2Proof/Tests/Slice0.lean ====
section
/-! SUPPORT. Tests on the spec's own examples (each names the rule its expected value stands in), the
ill-formed terms that the checks refuse, the decoding of every command's word, and a witness for every
statement with hypotheses. -/

namespace Sys2Proof.Tests

open Sys2Proof.Machine

set_option maxRecDepth 100000
set_option Elab.async false

/-- The state after one step that runs the command word `w` from `s`. -/
def run1 (s : State) (w : Nat) : State :=
  match step (s.withFetchWord 32 w) with
  | .next t => t
  | .fault _ | .refused _ => s

/-- `s` with BLK holding `bytes`, zero filled. -/
def withBlk (s : State) (bytes : List Byte) : State := { s with blk := fill 128 bytes }

/-- The state after reset with the command word `w` run and `bytes` in BLK. -/
def after (w : Nat) (bytes : List Byte) : State := withBlk (run1 State.reset w) bytes

/-- The ASCII text "abc". -/
def abc : List Byte := [0x61, 0x62, 0x63]

/-- The state after reset with `bytes` in message memory from address 0 on, and their number in MLEN. -/
def withMsg (bytes : List Byte) : State :=
  { State.reset with
    mlen := BitVec.ofNat 64 bytes.length
    msg := (List.range bytes.length).zip bytes }

/-- INIT.BLAKE2B with CFG = `cfg` (R29), then `bytes` in BLK. -/
def blake (cfg : Word32) (bytes : List Byte) : State :=
  withBlk (run1 { State.reset with cfg := cfgOfWord cfg } 0x61) bytes

/-! ### Ill-formed terms (R95, R101): a byte count above 255 has no encoding -/

theorem test_illformed_padMd4 : Instr.wellFormed (.padMd4 256) = false := by decide
theorem test_illformed_finalMd4 : Instr.wellFormed (.finalMd4 256) = false := by decide
theorem test_illformed_padMd5 : Instr.wellFormed (.padMd5 256) = false := by decide
theorem test_illformed_finalMd5 : Instr.wellFormed (.finalMd5 256) = false := by decide
theorem test_illformed_padSha1 : Instr.wellFormed (.padSha1 256) = false := by decide
theorem test_illformed_finalSha1 : Instr.wellFormed (.finalSha1 256) = false := by decide
theorem test_illformed_padSha256 : Instr.wellFormed (.padSha256 256) = false := by decide
theorem test_illformed_finalSha256 : Instr.wellFormed (.finalSha256 256) = false := by decide
theorem test_illformed_padSha512 : Instr.wellFormed (.padSha512 256) = false := by decide
theorem test_illformed_finalSha512 : Instr.wellFormed (.finalSha512 256) = false := by decide
theorem test_illformed_padRipemd160 : Instr.wellFormed (.padRipemd160 256) = false := by decide
theorem test_illformed_finalRipemd160 : Instr.wellFormed (.finalRipemd160 256) = false := by decide
theorem test_illformed_padBlake2b : Instr.wellFormed (.padBlake2b 256) = false := by decide
theorem test_illformed_finalBlake2b : Instr.wellFormed (.finalBlake2b 256) = false := by decide

/-- R101's own example. -/
theorem test_illformed_R101 : Instr.wellFormed (.finalSha256 300) = false := by decide

theorem test_wellformed_edge :
    Instr.wellFormed (.padMd4 255) = true ∧ Instr.wellFormed (.finalBlake2b 0) = true := by decide

/-! ### Decoding, by words written out from R91, R92 and R94: RSV NB ALG OP -/

theorem test_decode_plain :
    decode 0b0000000000000000_00000000_0000_0000 = .ok .nop ∧ decode 0b0000000000000000_00000000_0000_0110 = .ok .encodeDigest ∧
    decode 0b0000000000000000_00000000_0000_1111 = .ok .sreset := by decide

theorem test_decode_init :
    decode 0b0000000000000000_00000000_0000_0001 = .ok .initMd4 ∧
    decode 0b0000000000000000_00000000_0001_0001 = .ok .initMd5 ∧
    decode 0b0000000000000000_00000000_0010_0001 = .ok .initSha1 ∧
    decode 0b0000000000000000_00000000_0011_0001 = .ok .initSha256 ∧
    decode 0b0000000000000000_00000000_0100_0001 = .ok .initSha512 ∧
    decode 0b0000000000000000_00000000_0101_0001 = .ok .initRipemd160 ∧
    decode 0b0000000000000000_00000000_0110_0001 = .ok .initBlake2b := by decide

theorem test_decode_compress :
    decode 0b0000000000000000_00000000_0000_0010 = .ok .compressMd4 ∧
    decode 0b0000000000000000_00000000_0001_0010 = .ok .compressMd5 ∧
    decode 0b0000000000000000_00000000_0010_0010 = .ok .compressSha1 ∧
    decode 0b0000000000000000_00000000_0011_0010 = .ok .compressSha256 ∧
    decode 0b0000000000000000_00000000_0100_0010 = .ok .compressSha512 ∧
    decode 0b0000000000000000_00000000_0101_0010 = .ok .compressRipemd160 ∧
    decode 0b0000000000000000_00000000_0110_0010 = .ok .compressBlake2b := by decide

theorem test_decode_pad :
    decode 0b0000000000000000_00000011_0000_0011 = .ok (.padMd4 3) ∧
    decode 0b0000000000000000_00000011_0001_0011 = .ok (.padMd5 3) ∧
    decode 0b0000000000000000_00000011_0010_0011 = .ok (.padSha1 3) ∧
    decode 0b0000000000000000_00000011_0011_0011 = .ok (.padSha256 3) ∧
    decode 0b0000000000000000_00000011_0100_0011 = .ok (.padSha512 3) ∧
    decode 0b0000000000000000_00000011_0101_0011 = .ok (.padRipemd160 3) ∧
    decode 0b0000000000000000_00000011_0110_0011 = .ok (.padBlake2b 3) := by decide

theorem test_decode_final :
    decode 0b0000000000000000_10000000_0000_0100 = .ok (.finalMd4 128) ∧
    decode 0b0000000000000000_10000000_0001_0100 = .ok (.finalMd5 128) ∧
    decode 0b0000000000000000_10000000_0010_0100 = .ok (.finalSha1 128) ∧
    decode 0b0000000000000000_10000000_0011_0100 = .ok (.finalSha256 128) ∧
    decode 0b0000000000000000_10000000_0100_0100 = .ok (.finalSha512 128) ∧
    decode 0b0000000000000000_10000000_0101_0100 = .ok (.finalRipemd160 128) ∧
    decode 0b0000000000000000_10000000_0110_0100 = .ok (.finalBlake2b 128) := by decide

theorem test_decode_serialize :
    decode 0b0000000000000000_00000000_0000_0101 = .ok .serializeMd4 ∧
    decode 0b0000000000000000_00000000_0001_0101 = .ok .serializeMd5 ∧
    decode 0b0000000000000000_00000000_0010_0101 = .ok .serializeSha1 ∧
    decode 0b0000000000000000_00000000_0011_0101 = .ok .serializeSha256 ∧
    decode 0b0000000000000000_00000000_0100_0101 = .ok .serializeSha512 ∧
    decode 0b0000000000000000_00000000_0101_0101 = .ok .serializeRipemd160 ∧
    decode 0b0000000000000000_00000000_0110_0101 = .ok .serializeBlake2b := by decide

theorem test_decode_hash :
    decode 0b0000000000000000_00000000_0000_0111 = .ok .hashMd4 ∧
    decode 0b0000000000000000_00000000_0001_0111 = .ok .hashMd5 ∧
    decode 0b0000000000000000_00000000_0010_0111 = .ok .hashSha1 ∧
    decode 0b0000000000000000_00000000_0011_0111 = .ok .hashSha256 ∧
    decode 0b0000000000000000_00000000_0100_0111 = .ok .hashSha512 ∧
    decode 0b0000000000000000_00000000_0101_0111 = .ok .hashRipemd160 ∧
    decode 0b0000000000000000_00000000_0110_0111 = .ok .hashBlake2b := by decide

/-- R101's examples: the words of `INIT.SHA256`, `FINAL.SHA256 3`, `FINAL.BLAKE2B 128` and `HASH.RIPEMD160`. -/
theorem test_encode_R101 :
    encode .initSha256 = 0x00000031 ∧ encode (.finalSha256 3) = 0x00000334 ∧
    encode (.finalBlake2b 128) = 0x00008064 ∧ encode .hashRipemd160 = 0x00000057 := by decide

/-- One word for each of the five conditions of R97, and R363's 0x00000010. -/
theorem test_illegal_words :
    decode 0x00010031 = .error .reservedBits ∧ decode 0x00000008 = .error .reservedOp ∧
    decode 0x0000000E = .error .reservedOp ∧ decode 0x00000010 = .error .strayOperand ∧
    decode 0x0000010F = .error .strayOperand ∧ decode 0x00000071 = .error .reservedAlg ∧
    decode 0x000000F4 = .error .reservedAlg ∧ decode 0x00000537 = .error .strayCount := by decide

theorem test_decodeTableWord :
    decodeTableWord 32 0x00000334 = some (.finalSha256 3) ∧ decodeTableWord 32 0x00000008 = none := by
  decide

/-! ### INIT -/

/-- R160. -/
theorem test_initMd4 :
    (run1 State.reset 0x01).h.toList = [0x67452301, 0xefcdab89, 0x98badcfe, 0x10325476, 0, 0, 0, 0] ∧
    statusWord (run1 State.reset 0x01) = 0x00000002 := by decide +kernel

/-- R163. -/
theorem test_initMd5 :
    (run1 State.reset 0x11).h.toList = [0x67452301, 0xefcdab89, 0x98badcfe, 0x10325476, 0, 0, 0, 0] ∧
    ctxWord (run1 State.reset 0x11) = 0x00010000 ∧ statusWord (run1 State.reset 0x11) = 0x00000002 := by decide +kernel

/-- R220. -/
theorem test_initSha1 :
    (run1 State.reset 0x21).h.toList =
      [0x67452301, 0xefcdab89, 0x98badcfe, 0x10325476, 0xc3d2e1f0, 0, 0, 0] := by decide +kernel

/-- R223. -/
theorem test_initSha256 :
    (run1 State.reset 0x31).h.toList = [0x6a09e667, 0xbb67ae85, 0x3c6ef372, 0xa54ff53a, 0x510e527f,
      0x9b05688c, 0x1f83d9ab, 0x5be0cd19] ∧ ctxWord (run1 State.reset 0x31) = 0x00030000 := by decide +kernel

/-- R226. -/
theorem test_initSha512 :
    (run1 State.reset 0x41).h[0] = 0x6a09e667f3bcc908 ∧ (run1 State.reset 0x41).h[7] = 0x5be0cd19137e2179 := by decide +kernel

/-- R271. -/
theorem test_initRipemd160 :
    (run1 State.reset 0x51).h.toList =
      [0x67452301, 0xefcdab89, 0x98badcfe, 0x10325476, 0xc3d2e1f0, 0, 0, 0] ∧
    ctxWord (run1 State.reset 0x51) = 0x00050000 := by decide +kernel

/-- R300. -/
theorem test_initBlake2b :
    (blake 0x00000340 []).h[0] = 0x6a09e667f2bdca48 ∧ ctxWord (blake 0x00000340 []) = 0x00060340 ∧
    (blake 0x00004001 []).h[0] = 0x6a09e667f2bd8909 := by decide +kernel

/-- R300. -/
theorem test_initBlake2b_errors :
    statusWord (blake 0x00000000 []) = 0x00000030 ∧ (blake 0x00004140 []).code = .errKlen := by decide +kernel

/-! ### The constant tables -/

/-- R211: the upper 32 bits of SHA-512's first 64 constants are SHA-256's. -/
theorem test_shaConstants :
    (sha512Const.take 64).map (fun k => k.extractLsb' 32 32) = sha256Const ∧ sha512Const.length = 80 := by
  decide +kernel

/-- R206 and R157: the first and last entries of their tables. -/
theorem test_tableEnds :
    sha256Const.head? = some 0x428a2f98 ∧ sha256Const.getLast? = some 0xc67178f2 ∧
    md5Const.head? = some 0xd76aa478 ∧ md5Const.getLast? = some 0xeb86d391 ∧ md5Const.length = 64 := by
  decide +kernel

/-! ### COMPRESS, on the padded block of "abc" -/

/-- The padded block of "abc" with a little-endian 8-byte length (R161). -/
def abcLe : List Byte := abc ++ [0x80] ++ List.replicate 52 0 ++ [0x18]

/-- The padded block of "abc" with a big-endian length, `n` bytes long (R221, R227). -/
def abcBe (n : Nat) : List Byte := abc ++ [0x80] ++ List.replicate (n - 5) 0 ++ [0x18]

/-- R161. -/
theorem test_compressMd4 :
    (run1 (after 0x01 abcLe) 0x02).h.toList = [0x7a0148a4, 0x52d821af, 0xe80ac15f, 0x9d72a67a, 0, 0, 0, 0] ∧
    (run1 (after 0x01 abcLe) 0x02).t = 64 := by decide +kernel

/-- R164. -/
theorem test_compressMd5 :
    (run1 (after 0x11 abcLe) 0x12).h.toList = [0x98500190, 0xb04fd23c, 0x7d3f96d6, 0x727fe128, 0, 0, 0, 0] ∧
    (run1 (after 0x11 abcLe) 0x12).t = 64 := by decide +kernel

/-- R221. -/
theorem test_compressSha1 :
    (run1 (after 0x21 (abcBe 64)) 0x22).h.toList =
      [0xa9993e36, 0x4706816a, 0xba3e2571, 0x7850c26c, 0x9cd0d89d, 0, 0, 0] := by decide +kernel

/-- R224. -/
theorem test_compressSha256 :
    (run1 (after 0x31 (abcBe 64)) 0x32).h.toList = [0xba7816bf, 0x8f01cfea, 0x414140de, 0x5dae2223,
      0xb00361a3, 0x96177a9c, 0xb410ff61, 0xf20015ad] := by decide +kernel

/-- R227. -/
theorem test_compressSha512 :
    (run1 (after 0x41 (abcBe 128)) 0x42).h.toList = [0xddaf35a193617aba, 0xcc417349ae204131,
      0x12e6fa4e89a97ea2, 0x0a9eeee64b55d39a, 0x2192992a274fc1a8, 0x36ba3c23a3feebbd,
      0x454d4423643ce80e, 0x2a9ac94fa54ca49f] := by decide +kernel

/-- R272. -/
theorem test_compressRipemd160 :
    (run1 (after 0x51 abcLe) 0x52).h.toList =
      [0xf708b28e, 0x7a985de0, 0x8e4a049b, 0x87b0c698, 0xfc0b5af1, 0, 0, 0] := by decide +kernel

/-- R302. -/
theorem test_compressBlake2b :
    (run1 (blake 0x00000040 abc) 0x62).h.toList = [0x2c6f84ff7d9115d7, 0x0401da9f863911f4,
      0xeefa0ce97d39fa23, 0xb83f9d4ab126bb76, 0x6cf2fb6fa0405eb9, 0x200bf551162b782c,
      0x1fe8719ddfe1832d, 0x7ceda51eefb3ab31] ∧ (run1 (blake 0x00000040 abc) 0x62).t = 128 := by decide +kernel

/-- R401: a context of another algorithm is ACTIVE. -/
theorem test_compress_errSeq :
    (run1 (after 0x01 abcLe) 0x12).code = .errSeq ∧ (run1 (after 0x01 abcLe) 0x12).t = 0 := by decide +kernel

/-! ### PAD -/

/-- R130. -/
theorem test_padMd4 :
    (run1 (after 0x01 []) 0x0003).padbuf.toList = 0x80 :: List.replicate 255 0 ∧
    (run1 (after 0x01 []) 0x0003).padcnt = 1 := by decide +kernel

/-- R131. -/
theorem test_padMd5 :
    (run1 (after 0x11 abc) 0x0313).padbuf.toList =
      abc ++ [0x80] ++ List.replicate 52 0 ++ [0x18] ++ List.replicate 199 0 := by decide +kernel

/-- R132: n = 56 needs two blocks. -/
theorem test_padSha1 :
    (run1 (after 0x21 (List.replicate 56 0x41)) 0x3823).padbuf.toList =
      List.replicate 56 0x41 ++ [0x80] ++ List.replicate 69 0 ++ [0x01, 0xC0] ++ List.replicate 128 0 ∧
    (run1 (after 0x21 (List.replicate 56 0x41)) 0x3823).padcnt = 2 := by decide +kernel

/-- R133: n = 55 gives one block. -/
theorem test_padSha256 :
    (prefixOf (run1 (after 0x31 (List.replicate 55 0x41)) 0x3733).padbuf 64).drop 55 =
      [0x80, 0, 0, 0, 0, 0, 0, 0x01, 0xB8] := by decide +kernel

/-- R134: n = 112 uses all 256 bytes. -/
theorem test_padSha512 :
    (run1 (after 0x41 (List.replicate 112 0x41)) 0x7043).padbuf.toList =
      List.replicate 112 0x41 ++ [0x80] ++ List.replicate 141 0 ++ [0x03, 0x80] := by decide +kernel

/-- R135: the length counts the 64 bytes compressed before. -/
theorem test_padRipemd160 :
    (prefixOf (run1 (withBlk (run1 (after 0x51 []) 0x52) (List.replicate 55 0x41)) 0x3753).padbuf 64).drop 55 =
      [0x80, 0xB8, 0x03, 0, 0, 0, 0, 0, 0] := by decide +kernel

/-- R136. -/
theorem test_padBlake2b :
    (run1 (blake 0x00000040 abc) 0x0363).padbuf.toList = abc ++ List.replicate 253 0 ∧
    (run1 (blake 0x00000040 abc) 0x0363).padcnt = 1 := by decide +kernel

/-- R401: 64 bytes are too many for MD5, and 128 for SHA-512. -/
theorem test_pad_errLen :
    (run1 (after 0x11 []) 0x4013).code = .errLen ∧ (run1 (after 0x41 []) 0x8043).code = .errLen ∧
    (run1 (after 0x41 []) 0x7F43).code = .ok := by decide +kernel

/-! ### FINAL -/

/-- R162. -/
theorem test_finalMd4 :
    fromBe (prefixOf (run1 (after 0x01 abc) 0x0304).digest 16) = 0xa448017aaf21d8525fc10ae87aa6729d ∧
    (run1 (after 0x01 abc) 0x0304).t = 3 := by decide +kernel

/-- R165. -/
theorem test_finalMd5 :
    fromBe (prefixOf (run1 (after 0x11 []) 0x0014).digest 16) = 0xd41d8cd98f00b204e9800998ecf8427e := by decide +kernel

/-- R222. -/
theorem test_finalSha1 :
    fromBe (prefixOf (run1 (after 0x21 abc) 0x0324).digest 20) =
      0xa9993e364706816aba3e25717850c26c9cd0d89d := by decide +kernel

/-- R225. -/
theorem test_finalSha256 :
    fromBe (prefixOf (run1 (after 0x31 abc) 0x0334).digest 32) =
      0xba7816bf8f01cfea414140de5dae2223b00361a396177a9cb410ff61f20015ad := by decide +kernel

/-- R228. -/
theorem test_finalSha512 :
    fromBe (prefixOf (run1 (after 0x41 []) 0x0044).digest 64) =
      0xcf83e1357eefb8bdf1542850d66d8007d620e4050b5715dc83f4a921d36ce9ce47d0d13c5d85f2b0ff8318d2877eec2f63b931bd47417a81a538327af927da3e := by decide +kernel

/-- R273. -/
theorem test_finalRipemd160 :
    fromBe (prefixOf (run1 (after 0x51 abc) 0x0354).digest 20) =
      0x8eb208f7e05d987a9b044a8e98c6b087f15a0bfc := by decide +kernel

/-- R303: DLEN 32. -/
theorem test_finalBlake2b :
    fromBe (run1 (blake 0x00000020 abc) 0x0364).digest.toList =
      0xbddd813c634239723171ef3fee98579b94964e3bb1cb3e427262c8c068d52319 * 256 ^ 32 ∧
    statusWord (run1 (blake 0x00000020 abc) 0x0364) = 0x00200104 := by decide +kernel

/-- R304. -/
theorem test_finalBlake2b_guard :
    (run1 (run1 (blake 0x00000040 []) 0x62) 0x0064).code = .errLen ∧
    (run1 (blake 0x00000340 []) 0x0064).code = .errLen ∧ (run1 (blake 0x00000040 []) 0x8164).code = .errLen := by decide +kernel

/-! ### SERIALIZE and ENCODE -/

/-- R334. -/
theorem test_serializeMd4 :
    fromBe (prefixOf (run1 (after 0x01 []) 0x05).digest 16) = 0x0123456789abcdeffedcba9876543210 := by decide +kernel

/-- R335. -/
theorem test_serializeMd5 :
    fromBe (prefixOf (run1 (after 0x11 []) 0x15).digest 16) = 0x0123456789abcdeffedcba9876543210 := by decide +kernel

/-- R336. -/
theorem test_serializeSha1 :
    fromBe (prefixOf (run1 (after 0x21 []) 0x25).digest 20) =
      0x67452301efcdab8998badcfe10325476c3d2e1f0 := by decide +kernel

/-- R337: the host reads DIGEST_0 as 0x67e6096a. -/
theorem test_serializeSha256 :
    readReg (run1 (after 0x31 []) 0x35) (regAt 0x080) = 0x67e6096a ∧ (run1 (after 0x31 []) 0x35).diglen = 32 := by decide +kernel

/-- R338. -/
theorem test_serializeSha512 :
    fromBe (prefixOf (run1 (after 0x41 []) 0x45).digest 16) = 0x6a09e667f3bcc908bb67ae8584caa73b ∧
    fromBe ((run1 (after 0x41 []) 0x45).digest.toList.drop 48) = 0x1f83d9abfb41bd6b5be0cd19137e2179 := by decide +kernel

/-- R339. -/
theorem test_serializeRipemd160 :
    fromBe (prefixOf (run1 (after 0x51 []) 0x55).digest 20) =
      0x0123456789abcdeffedcba9876543210f0e1d2c3 := by decide +kernel

/-- R340: DLEN 4. -/
theorem test_serializeBlake2b :
    (run1 (blake 0x00000004 []) 0x65).digest.toList = [0x0c, 0xc9, 0xbd, 0xf2] ++ List.replicate 60 0 ∧
    (run1 (blake 0x00000004 []) 0x65).diglen = 4 := by decide +kernel

/-- R341: the host reads HEX_0 as 0x64313464 ("d41d"). -/
theorem test_encodeDigest :
    readReg (run1 (run1 (after 0x11 []) 0x0014) 0x06) (regAt 0x300) = 0x64313464 ∧
    (run1 (run1 (after 0x11 []) 0x0014) 0x06).hexlen = 32 := by decide +kernel

/-- R341: after INIT there is no digest. -/
theorem test_encodeDigest_errSeq :
    (run1 (after 0x11 []) 0x06).code = .errSeq := by decide +kernel

/-! ### HASH -/

/-- R373. -/
theorem test_hashMd4 :
    fromBe (prefixOf (run1 (withMsg abc) 0x07).digest 16) = 0xa448017aaf21d8525fc10ae87aa6729d ∧
    statusWord (run1 (withMsg abc) 0x07) = 0x20100104 := by decide +kernel

/-- R374: 200 bytes of "a". -/
theorem test_hashMd5 :
    fromBe (prefixOf (run1 (withMsg (List.replicate 200 0x61)) 0x17).digest 16) =
      0x887f30b43b2867f4a9accceee7d16e6c := by decide +kernel

/-- R375. -/
theorem test_hashSha1 :
    fromBe (prefixOf (run1 (withMsg abc) 0x27).digest 20) = 0xa9993e364706816aba3e25717850c26c9cd0d89d ∧
    statusWord (run1 (withMsg abc) 0x27) = 0x28140104 := by decide +kernel

/-- R376: the two-block message, its letter k + i at byte 4k + i. -/
theorem test_hashSha256 :
    fromBe (prefixOf (run1 (withMsg ((List.range 14).flatMap fun k =>
      (List.range 4).map fun i => BitVec.ofNat 8 (0x61 + k + i))) 0x37).digest 32) =
      0x248d6a61d20638b8e5c026930c3e6039a33ce45964ff2167f6ecedd419db06c1 := by decide +kernel

/-- R377. -/
theorem test_hashSha512 :
    fromBe (run1 (withMsg abc) 0x47).digest.toList =
      0xddaf35a193617abacc417349ae20413112e6fa4e89a97ea20a9eeee64b55d39a2192992a274fc1a836ba3c23a3feebbd454d4423643ce80e2a9ac94fa54ca49f := by decide +kernel

/-- R378. -/
theorem test_hashRipemd160 :
    fromBe (prefixOf (run1 (withMsg []) 0x57).digest 20) = 0x9c1185a5c5e9fc54612808977ee8f548b2258d31 := by decide +kernel

/-- R379: keyed with "key". -/
theorem test_hashBlake2b :
    fromBe (run1 { withMsg abc with cfg := cfgOfWord 0x00000340, key := fill 64 [0x6b, 0x65, 0x79] } 0x67).digest.toList =
      0x5c6a9a4ae911c02fb7e71a991eb9aea371ae993d4842d206e6020d46f5e41358c6d5c277c110ef86c959ed63e6ecaaaceaaff38019a43264ae06acf73b9550b1 := by decide +kernel

/-- R379, R402: ERR_DLEN before ERR_MLEN; ERR_MLEN changes CODE alone. -/
theorem test_hashBlake2b_errors :
    (run1 { State.reset with mlen := 4097 } 0x67).code = .errDlen ∧
    (run1 { State.reset with cfg := cfgOfWord 0x00000040, mlen := 4097 } 0x67).code = .errMlen := by decide +kernel

/-! ### NOP and SRESET -/

/-- R363: NOP clears a stale error code. -/
theorem test_nop :
    (run1 (run1 State.reset 0x32) 0x00).code = .ok ∧ (run1 State.reset 0x32).code = .errSeq := by decide +kernel

/-- R362: after HASH.SHA256 STATUS is 0, and the message stays. -/
theorem test_sreset :
    statusWord (run1 (run1 (withMsg abc) 0x37) 0x0F) = 0 ∧
    (run1 (run1 (withMsg abc) 0x37) 0x0F).msg = (withMsg abc).msg := by decide +kernel

/-- R405: after HASH.SHA256, INIT.BLAKE2B with CFG = 0. -/
theorem test_config_error_example :
    statusWord (run1 (run1 (withMsg abc) 0x37) 0x61) = 0x00000130 ∧
    ctxWord (run1 (run1 (withMsg abc) 0x37) 0x61) = 0x00030000 := by decide +kernel

/-! ### Witnesses: states and operands that meet the hypotheses of each statement that has some

Each is named after its statement, and has one conjunct for each clause, at the ends of the clause's range.
`witness_contexts` serves the statements about COMPRESS, PAD, FINAL and SERIALIZE, `witness_PadMdWritesPadding` and
`witness_FinalBlakeClosesContext` the byte counts of PAD and FINAL, `witness_CommandFrame` also PhaseTransitions and
UnusedRegistersZero, and `witness_PaddingLayout` also PaddingSize. -/

/-- A state in phase `p` of a context of `a`, with the parameters of BLAKE2b-512 where `a` is BLAKE2b. -/
def inPhase (a : Alg) (p : Phase) : State :=
  { State.reset with ctx := ⟨a, if a = .blake2b then 64 else 0, 0⟩, phase := p }

/-- The state after reset with `w` pending. -/
def pending (w : Word32) : State := { State.reset with pend := w, busy := true }

/-- The state after reset with CFG = ⟨dl, kl⟩ and MLEN = `ml`. -/
def configured (dl kl : Byte) (ml : Word64) : State := { State.reset with cfg := ⟨dl, kl⟩, mlen := ml }

/-- Whether a command answers a next state with CODE OK. -/
def runsOk (i : Instr) (s : State) : Bool :=
  match exec i s with
  | .next t => t.code == .ok
  | .fault _ | .refused _ => false

theorem ok_run {i : Instr} {s : State} (h : runsOk i s = true) : ∃ t, exec i s = .next t ∧ t.code = .ok := by
  obtain ⟨t, ht⟩ := exec_next i s
  exact ⟨t, ht, by simpa [runsOk, ht] using h⟩

theorem witness_DecodeAfterEncode :
    (Instr.finalBlake2b 255).WellFormed ∧ (Instr.padMd4 0).WellFormed ∧ Instr.nop.WellFormed := by decide

theorem witness_EncodeAfterDecode : decode 0x0000FF64 = .ok (.finalBlake2b 255) := by decide

theorem witness_IllegalWordsRejected :
    (illegalWord 0x80000000 ∧ illegalWord 0x08 ∧ illegalWord 0x0E ∧ illegalWord 0x10 ∧ illegalWord 0xFF0F ∧
      illegalWord 0x71 ∧ illegalWord 0xF7 ∧ illegalWord 0x0105) ∧ (pending 0x08).busy = true := by
  refine ⟨⟨?_, ?_, ?_, ?_, ?_, ?_, ?_, ?_⟩, rfl⟩ <;> (unfold illegalWord; decide)

theorem witness_StepRunsDecodedCommand :
    (pending 0x31).busy = true ∧ decode (pending 0x31).pend = .ok .initSha256 ∧ (pending 0x31).schedule = [] ∧
    { pending 0x31 with schedule := [.engine] }.schedule = .engine :: [] := by decide

theorem witness_IdleEngineKeepsState :
    State.reset.busy = false ∧ State.reset.schedule = [] ∧
    { State.reset with schedule := [.engine] }.schedule = .engine :: [] := by decide

theorem witness_CommandWriteIssues : State.reset.busy = false ∧ (pending 0).busy = true := by decide

theorem witness_FirstFailingCheckDecides :
    (pending 0x08).busy = true ∧ decode (pending 0x08).pend = .error .reservedOp ∧
    decode (pending 0x02).pend = .ok .compressMd4 := by decide

/-- Words with OP = 0 and OP = 15 that are not NOP and SRESET. -/
theorem witness_NopWritesCode :
    (0x00000010 : BitVec 32).extractLsb' 0 4 = 0 ∧ (0x00000010 : BitVec 32) ≠ 0 ∧
    (0x8000001F : BitVec 32).extractLsb' 0 4 = 15 ∧ (0x8000001F : BitVec 32) ≠ 0x0000000F := by decide

theorem witness_ErrorsAreAtomic :
    exec .compressMd4 State.reset = .next { State.reset with code := .errSeq } ∧
    exec .initBlake2b State.reset = .next { State.reset with code := .errDlen } ∧
    ∃ t, engineTurn (pending 0x02) = .next t := ⟨rfl, rfl, engineTurn_next _⟩

theorem witness_PendingCommandCompletes :
    (pending 0x31).busy = true ∧
    { pending 0x31 with schedule := [.engine] }.schedule =
      List.replicate 0 (.access (.read 32 0x004)) ++ .engine :: [] ∧
    { pending 0x31 with schedule := [.access (.read 32 0x004), .engine, .powerOn] }.schedule =
      List.replicate 1 (.access (.read 32 0x004)) ++ .engine :: [.powerOn] := by decide

/-- DLEN 1 and 64, KLEN 0 and 64; DLEN 0 and 65; KLEN 65 and 255. -/
theorem witness_InitBlakeChecksThenOpens :
    (1 ≤ (configured 1 0 0).cfg.dlen.toNat ∧ (configured 1 0 0).cfg.dlen.toNat ≤ 64 ∧
      (configured 1 0 0).cfg.klen.toNat ≤ 64) ∧
    (1 ≤ (configured 64 64 0).cfg.dlen.toNat ∧ (configured 64 64 0).cfg.dlen.toNat ≤ 64 ∧
      (configured 64 64 0).cfg.klen.toNat ≤ 64) ∧
    (configured 0 0 0).cfg.dlen.toNat = 0 ∧ 65 ≤ (configured 65 0 0).cfg.dlen.toNat ∧
    65 ≤ (configured 1 65 0).cfg.klen.toNat ∧ 65 ≤ (configured 64 255 0).cfg.klen.toNat := by decide

/-- COMPRESS, FINAL, PAD and SERIALIZE have their context in one of these states, and none in the others. -/
theorem witness_contexts :
    (∀ a : Alg, ∀ p : Phase, (inPhase a p).phase = p ∧ (inPhase a p).ctx.alg = a ∧ ctxLegal (inPhase a p).ctx) ∧
    ¬((inPhase .md5 .active).phase = .active ∧ (inPhase .md5 .active).ctx.alg = .md4) ∧
    ∀ a : Alg, ¬((inPhase a .done).phase = .active ∧ (inPhase a .done).ctx.alg = a) ∧
      ¬(((inPhase a .idle).phase = .active ∨ (inPhase a .idle).phase = .done) ∧ (inPhase a .idle).ctx.alg = a) := by
  refine ⟨?_, by decide, ?_⟩
  · intro a p
    refine ⟨rfl, rfl, ?_⟩
    cases a <;> simp [ctxLegal, inPhase]
  · intro a
    cases a <;> decide

/-- Byte counts 0, BS - 1, BS and 255 with each algorithm (PAD and FINAL; the context is `inPhase a .active`). -/
theorem witness_PadMdWritesPadding :
    (∀ a ∈ mdFamily, 0 < blockSize a ∧ blockSize a - 1 < blockSize a ∧ blockSize a ≤ blockSize a ∧
      blockSize a ≤ 255) ∧ ∀ e ∈ mdEngines, e.alg ∈ mdFamily :=
  ⟨by decide, mdFamily_alg⟩

/-- Byte counts 0, 1, 128 and 129; an empty last block that is the whole input, and the two that are not. -/
theorem witness_FinalBlakeClosesContext :
    (inPhase .blake2b .active).t = 0 ∧ (inPhase .blake2b .active).ctx.klen = 0 ∧
    ((1 : Nat) = 0 → { inPhase .blake2b .active with t := 128 }.t = 0) ∧
    { inPhase .blake2b .active with t := 128 }.t ≠ 0 ∧
    { inPhase .blake2b .active with ctx := ⟨.blake2b, 64, 1⟩ }.ctx.klen ≠ 0 ∧ (128 : Nat) < 129 := by decide

theorem witness_EncodeRendersDigest :
    State.reset.diglen = 0 ∧ { State.reset with diglen := 1 }.diglen ≠ 0 ∧
    { State.reset with diglen := 64 }.diglen.toNat ≤ 64 := by decide

/-- MLEN 0 and MSG_CAP, and MSG_CAP + 1. -/
theorem witness_HashMdHashesMessage :
    (configured 0 0 0).mlen.toNat ≤ (configured 0 0 0).msgcap.toNat ∧
    (configured 0 0 4096).mlen.toNat ≤ (configured 0 0 4096).msgcap.toNat ∧
    (configured 0 0 4097).msgcap.toNat < (configured 0 0 4097).mlen.toNat := by decide

theorem witness_HashBlakeHashesMessage :
    (∀ dl kl : Byte, dl = 1 ∨ dl = 64 → kl = 0 ∨ kl = 64 → 1 ≤ (configured dl kl 4096).cfg.dlen.toNat ∧
      (configured dl kl 4096).cfg.dlen.toNat ≤ 64 ∧ (configured dl kl 4096).cfg.klen.toNat ≤ 64) ∧
    (configured 1 0 4096).mlen.toNat ≤ (configured 1 0 4096).msgcap.toNat ∧
    (configured 0 0 0).cfg.dlen.toNat = 0 ∧ 65 ≤ (configured 65 65 5000).cfg.dlen.toNat ∧
    65 ≤ (configured 64 65 5000).cfg.klen.toNat ∧
    (configured 64 64 4097).msgcap.toNat < (configured 64 64 4097).mlen.toNat := by
  refine ⟨?_, by decide, by decide, by decide, by decide, by decide⟩
  rintro dl kl (rfl | rfl) (rfl | rfl) <;> decide

/-- One command of each operation that a clause of the frame or of R33 names, completing with OK. -/
theorem witness_CommandFrame :
    (∃ t, exec .nop State.reset = .next t ∧ t.code = .ok) ∧
    (∃ t, exec .initMd4 State.reset = .next t ∧ t.code = .ok) ∧
    (∃ t, exec .compressMd4 (inPhase .md4 .active) = .next t ∧ t.code = .ok) ∧
    (∃ t, exec (.padSha512 127) (inPhase .sha512 .active) = .next t ∧ t.code = .ok) ∧
    (∃ t, exec (.finalBlake2b 0) (inPhase .blake2b .active) = .next t ∧ t.code = .ok) ∧
    (∃ t, exec .serializeSha1 (inPhase .sha1 .done) = .next t ∧ t.code = .ok) ∧
    (∃ t, exec .encodeDigest { State.reset with diglen := 16 } = .next t ∧ t.code = .ok) ∧
    (∃ t, exec .hashMd4 State.reset = .next t ∧ t.code = .ok) ∧
    (∃ t, exec .sreset State.reset = .next t ∧ t.code = .ok) :=
  ⟨ok_run (by decide +kernel), ok_run (by decide +kernel), ok_run (by decide +kernel),
    ok_run (by decide +kernel), ok_run (by decide +kernel), ok_run (by decide +kernel),
    ok_run (by decide +kernel), ok_run (by decide +kernel), ok_run (by decide +kernel)⟩

/-- Tails of 0 and BS - 1 bytes, and zero-fill counts below a positive one. -/
theorem witness_ZeroFillIsLeast :
    ∀ a ∈ mdFamily, (0 : Nat) < blockSize a ∧ blockSize a - 1 < blockSize a ∧ 0 < zeroFill a 0 ∧
      0 < zeroFill a (blockSize a - 1) := by decide

/-- Tails of 0 and BS - 1 bytes, and a byte index between the terminator and the length field. -/
theorem witness_PaddingLayout :
    ∀ a ∈ mdFamily, ([] : List Byte).length < blockSize a ∧
      (List.replicate (blockSize a - 1) (0 : Byte)).length < blockSize a ∧
      1 < (mdPad a [] 0).length - lengthField a := by decide +kernel

theorem witness_BlakePaddingIsZeros :
    ([] : List Byte).length ≤ 128 ∧ (List.replicate 128 (7 : Byte)).length ≤ 128 ∧ (127 : Nat) < 128 := by decide

/-- The first and last digest bytes of each algorithm, with the word index of each. -/
theorem witness_SerializedBytes :
    ∀ a ∈ [Alg.md4, .md5, .sha1, .sha256, .sha512, .ripemd160, .blake2b],
      0 < (serialize (inPhase a .active).ctx State.reset.h).length ∧
      ((serialize (inPhase a .active).ctx State.reset.h).length - 1) / wordBytes a < 8 := by decide +kernel

theorem witness_HexCharacters :
    ([0x0F, 0xF0] : List Byte)[0]? = some 0x0F ∧ ([0x0F, 0xF0] : List Byte)[1]? = some 0xF0 := by decide

theorem witness_BlockWordOrder :
    (zeros 64).length = 64 ∧ (zeros 128).length = 128 ∧ 4 * 31 + 4 ≤ (zeros 128).length ∧
    8 * 15 + 8 ≤ (zeros 128).length := by decide

theorem witness_ShaMessageSchedules :
    (List.replicate 16 (1 : Word32)).length = 16 ∧ (List.replicate 16 (1 : Word64)).length = 16 := by decide

/-- A state in phase DONE that meets the invariant: an MD4 context with H = 0 and its digest. -/
def doneMd4 : State := { State.reset with phase := .done, diglen := 16 }

theorem doneMd4_inv : ContextInv doneMd4 where
  ctx := by simp [ctxLegal, doneMd4, State.reset]
  registers := by show ∀ _, _; decide
  padding := by show _ ∧ _; decide
  digest := by show _ ∧ _; decide
  hex := .inl ⟨rfl, by decide +kernel⟩
  phase := ⟨by simp [doneMd4], fun _ => ⟨rfl, by decide +kernel⟩⟩

/-- Every step's invariant: a state in DONE with HASH.SHA256 issued. -/
theorem witness_StepKeepsContextInv :
    ContextInv (doneMd4.withFetchWord 32 0x37) ∧ ∃ t, step (doneMd4.withFetchWord 32 0x37) = .next t :=
  ⟨⟨doneMd4_inv.ctx, doneMd4_inv.registers, doneMd4_inv.padding, doneMd4_inv.digest, doneMd4_inv.hex,
    doneMd4_inv.phase⟩, engineTurn_next { doneMd4.withFetchWord 32 0x37 with schedule := [] }⟩

theorem witness_StepKeepsMemoryInv :
    MemoryInv { withMsg abc with schedule := [.access (.msgWrite 1 7)] } ∧
    ∃ t, step { withMsg abc with schedule := [.access (.msgWrite 1 7)] } = .next t :=
  ⟨⟨by decide, by decide, by decide⟩, _, rfl⟩

theorem witness_DoneSerializeKeepsDigest : ContextInv doneMd4 ∧ doneMd4.phase = .done := ⟨doneMd4_inv, rfl⟩

theorem witness_EncoderIdempotent :
    (∃ t, exec (serializeOf .md4) doneMd4 = .next t ∧ t.code = .ok) ∧
    ∃ t, exec .encodeDigest doneMd4 = .next t ∧ t.code = .ok := 
  ⟨ok_run (by decide +kernel), ok_run (by decide +kernel)⟩

/-- A buffer that differs from BLK past byte 2, and one that differs past byte 63. -/
theorem witness_BlkBytesPastOperandUnread :
    (Instr.padMd4 3 ≠ .sreset ∧
      (fill 128 (zeros 3 ++ [1]) : Buffer 128).toList.take (blkRead (.padMd4 3)) =
        (inPhase .md4 .active).blk.toList.take (blkRead (.padMd4 3)) ∧
      ∃ t, exec (.padMd4 3) (inPhase .md4 .active) = .next t ∧ t.code = .ok) ∧
    (fill 128 (zeros 64 ++ [1]) : Buffer 128).toList.take (blkRead .compressMd4) =
      (inPhase .md4 .active).blk.toList.take (blkRead .compressMd4) :=
  ⟨⟨by decide, by decide +kernel, ok_run (by decide +kernel)⟩, by decide +kernel⟩

/-- A key buffer that differs from KEY past byte KLEN - 1. -/
theorem witness_HostRegistersReadOnlyByTheirCommands :
    (fill 64 (zeros 3 ++ [1]) : Buffer 64).toList.take (configured 64 3 0).cfg.klen.toNat =
      (configured 64 3 0).key.toList.take (configured 64 3 0).cfg.klen.toNat ∧
    (∃ t, exec .hashBlake2b (configured 64 3 0) = .next t ∧ t.code = .ok) ∧
    Instr.hashMd4 ≠ .hashBlake2b ∧ (Instr.nop).fields.1 ≠ .hash :=
  ⟨by decide +kernel, ok_run (by decide +kernel), by decide, by decide⟩

theorem witness_HashIgnoresOldContext :
    ∀ x, x < (withMsg abc).mlen.toNat →
      msgByte { withMsg abc with phase := .done, t := 5, powerOns := 2 } x = msgByte (withMsg abc) x := by
  intro x hx
  have : x < 3 := hx
  interval_cases x <;> rfl

/-- The empty message and "abc", with MLEN and message memory that hold them. -/
theorem witness_MdBlockProgramEqualsHash :
    ((withMsg []).mlen.toNat = ([] : List Byte).length ∧ (withMsg []).mlen.toNat ≤ (withMsg []).msgcap.toNat) ∧
    (withMsg abc).mlen.toNat = abc.length ∧ (∀ x, x < abc.length → msgByte (withMsg abc) x = abc.getD x 0) ∧
    (withMsg abc).mlen.toNat ≤ (withMsg abc).msgcap.toNat := by
  refine ⟨by decide, by decide, ?_, by decide⟩
  intro x hx
  have : x < 3 := hx
  interval_cases x <;> rfl

/-- Unkeyed with DLEN 1 and keyed with KLEN 64, DLEN 64; the messages are those of the witness before. -/
theorem witness_BlakeBlockProgramEqualsHash :
    ((configured 1 0 0).cfg.klen.toNat ≤ 64 ∧
      [] = (configured 1 0 0).key.toList.take (configured 1 0 0).cfg.klen.toNat) ∧
    (configured 64 64 0).cfg.klen.toNat ≤ 64 ∧
    zeros 64 = (configured 64 64 0).key.toList.take (configured 64 64 0).cfg.klen.toNat := by decide +kernel

theorem witness_ReadsHaveNoSideEffect :
    (∃ t, hostAccess (.read 32 0x3FC) State.reset = .next t) ∧
    (∃ t, hostAccess (.read 32 0x004) (pending 0) = .next t) ∧
    ∃ t, hostAccess (.msgRead 4095) State.reset = .next t := ⟨⟨_, rfl⟩, ⟨_, rfl⟩, _, rfl⟩

/-- BUSY = 0, as all statements about aperture accesses ask; the ends of the reserved ranges; the first and last
buffer words with their byte indices. -/
theorem witness_RegisterMap :
    State.reset.busy = false ∧
    (∀ o ∈ [0x030, 0x03C, 0x0C0, 0x0FC, 0x1C0, 0x1FC, 0x380, 0x3FC], o % 4 = 0 ∧
      ((0x030 ≤ o ∧ o < 0x040) ∨ (0x0C0 ≤ o ∧ o < 0x100) ∨ (0x1C0 ≤ o ∧ o < 0x200) ∨
        (0x380 ≤ o ∧ o < 0x400))) ∧
    (31 < 32 ∧ 3 < 4 ∧ 4 * 31 + 3 < 128) ∧ 15 < 16 ∧ 4 * 15 + 3 < 64 := by decide

/-- The offsets at the ends of the reserved ranges and of the read-only range. -/
theorem witness_OtherWritesIgnored :
    State.reset.busy = false ∧ ∀ o ∈ [0x004, 0x00C, 0x018, 0x0FC, 0x1C0, 0x3FC], o % 4 = 0 ∧
      (o = 0x004 ∨ o = 0x00C ∨ (0x018 ≤ o ∧ o < 0x100) ∨ (0x1C0 ≤ o ∧ o < 0x400)) := by decide

theorem witness_MessageMemoryAccess :
    State.reset.busy = false ∧ 0 < State.reset.msgcap.toNat ∧ 4095 < State.reset.msgcap.toNat := by decide

theorem witness_Sha256DigestWordReversed :
    ∃ t, exec .serializeSha256 (inPhase .sha256 .active) = .next t ∧ t.code = .ok ∧ t.busy = false :=
by
  obtain ⟨t, ht, hc⟩ := ok_run (i := .serializeSha256) (s := inPhase .sha256 .active) (by decide +kernel)
  refine ⟨t, ht, hc, ?_⟩
  have h : (match exec .serializeSha256 (inPhase .sha256 .active) with
    | .next t => t.busy
    | .fault _ | .refused _ => true) = false := by decide +kernel
  rwa [ht] at h

theorem witness_PowerOnResetsEverything :
    { pending 0x31 with schedule := [.powerOn] }.schedule = .powerOn :: [] := rfl

theorem witness_SresetDiffersInMessageAlone :
    (State.reset.withFetchWord 32 0x0F).busy = true ∧ decode (State.reset.withFetchWord 32 0x0F).pend = .ok .sreset ∧
    (State.reset.withFetchWord 32 0x0F).schedule = .engine :: [] := by decide

end Sys2Proof.Tests
end

section
/-! PROOF. The words of a block: what `wordsLe` and `wordsBe` answer at an index (R12). -/

namespace Sys2Proof.Machine

/-- Group `i` starts at byte `k * i`. -/
theorem groups_getElem? {k count i : Nat} (bs : List Byte) (h : i < count) :
    (groups k count bs)[i]? = some ((bs.drop (k * i)).take k) := by
  induction count generalizing i bs with
  | zero => omega
  | succ count ih =>
    cases i with
    | zero => simp [groups]
    | succ i => simp [groups, ih _ (Nat.lt_of_succ_lt_succ h), Nat.mul_succ, Nat.add_comm]

/-- A slice that lies inside a list, byte by byte. -/
theorem take_drop_eq_map_getD {bs : List Byte} {i k : Nat} (h : i + k ≤ bs.length) :
    (bs.drop i).take k = (List.range k).map fun m => bs.getD (i + m) 0 := by
  apply List.ext_getElem
  · simp; omega
  · intro m _ hm
    have hlt : i + m < bs.length := by simp at hm; omega
    simp [List.getElem?_eq_getElem hlt]

/-- A group that lies inside the bytes is one of the groups `wordsLe` and `wordsBe` count. -/
theorem group_index_lt {k j len : Nat} (hk : 0 < k) (h : k * j + k ≤ len) : j < len / k := by
  rw [Nat.lt_iff_add_one_le, Nat.le_div_iff_mul_le hk, Nat.mul_comm, Nat.mul_succ]
  exact h

/-- Word `j` of `words_le` is `from_le` of the `k` bytes from `k * j` on (R12). -/
theorem wordsLe_getElem? {w k j : Nat} {bs : List Byte} (hk : 0 < k) (h : k * j + k ≤ bs.length) :
    (wordsLe w k bs)[j]? =
      some (BitVec.ofNat w (fromLe ((List.range k).map fun m => bs.getD (k * j + m) 0))) := by
  simp only [wordsLe, List.getElem?_map, groups_getElem? bs (group_index_lt hk h),
    take_drop_eq_map_getD h, Option.map_some]

/-- Word `j` of `words_be` is `from_be` of the `k` bytes from `k * j` on (R12). -/
theorem wordsBe_getElem? {w k j : Nat} {bs : List Byte} (hk : 0 < k) (h : k * j + k ≤ bs.length) :
    (wordsBe w k bs)[j]? =
      some (BitVec.ofNat w (fromBe ((List.range k).map fun m => bs.getD (k * j + m) 0))) := by
  simp only [wordsBe, List.getElem?_map, groups_getElem? bs (group_index_lt hk h),
    take_drop_eq_map_getD h, Option.map_some]

/-- `from_le` puts its first byte below the number of the other bytes. -/
theorem ofNat_fromLe_cons (w : Nat) (b : Byte) (bs : List Byte) :
    BitVec.ofNat (w + 8) (fromLe (b :: bs)) = BitVec.ofNat w (fromLe bs) ++ b := by
  have hlow : (b.toNat + 256 * fromLe bs) % 2 ^ 8 = b.toNat := by omega
  have hhigh : (b.toNat + 256 * fromLe bs) / 2 ^ 8 = fromLe bs := by omega
  apply BitVec.eq_of_toNat_eq
  rw [BitVec.toNat_append, ← Nat.shiftLeft_add_eq_or_of_lt b.isLt, Nat.shiftLeft_eq, BitVec.toNat_ofNat,
    BitVec.toNat_ofNat, fromLe, Nat.add_comm w, Nat.pow_add, Nat.mod_mul, hlow, hhigh, Nat.mul_comm,
    Nat.add_comm]

theorem ofNat_fromLe_singleton (b : Byte) : BitVec.ofNat 8 (fromLe [b]) = b := by
  simp [fromLe]

/-- Four bytes as one 32-bit word, the first one least significant. -/
theorem ofNat_fromLe_four (b0 b1 b2 b3 : Byte) :
    BitVec.ofNat 32 (fromLe [b0, b1, b2, b3]) = b3 ++ b2 ++ b1 ++ b0 := by
  rw [ofNat_fromLe_cons 24, ofNat_fromLe_cons 16, ofNat_fromLe_cons 8, ofNat_fromLe_singleton]

/-- Eight bytes as one 64-bit word, the first one least significant. -/
theorem ofNat_fromLe_eight (b0 b1 b2 b3 b4 b5 b6 b7 : Byte) :
    BitVec.ofNat 64 (fromLe [b0, b1, b2, b3, b4, b5, b6, b7]) =
      b7 ++ b6 ++ b5 ++ b4 ++ b3 ++ b2 ++ b1 ++ b0 := by
  rw [ofNat_fromLe_cons 56, ofNat_fromLe_cons 48, ofNat_fromLe_cons 40, ofNat_fromLe_cons 32,
    ofNat_fromLe_four]

/-- Settles O36: each word is `from_le` (`from_be`) of its slice of the block, and `from_le` concatenates the
bytes of the slice from the last one down; `from_be` does so for the reversed slice. -/
theorem blockWordOrder : Obligations.BlockWordOrder := by
  intro b _ at'
  refine ⟨fun j hj => ⟨?_, ?_⟩, fun j hj => ⟨?_, ?_⟩⟩
  · rw [wordsLe_getElem? (by decide) hj]
    exact congrArg some (ofNat_fromLe_four ..)
  · rw [wordsBe_getElem? (by decide) hj]
    exact congrArg some (ofNat_fromLe_four ..)
  · rw [wordsLe_getElem? (by decide) hj]
    exact congrArg some (ofNat_fromLe_eight ..)
  · rw [wordsBe_getElem? (by decide) hj]
    exact congrArg some (ofNat_fromLe_eight ..)

end Sys2Proof.Machine
end

section
/-! PROOF. What a step keeps: one rule for every invariant of `step`, and what every command leaves of the
host's registers, of message memory and of the model's own fields (R44, R74). -/

namespace Sys2Proof.Machine

/-- What an operation of the engine leaves as it was: message memory, MSGCAP, the command latch and the
model's own fields. -/
structure SameEnvironment (s t : State) : Prop where
  msgcap : t.msgcap = s.msgcap
  msg : t.msg = s.msg
  busy : t.busy = s.busy
  pend : t.pend = s.pend
  powerOns : t.powerOns = s.powerOns
  draws : t.draws = s.draws
  schedule : t.schedule = s.schedule
  seen : t.seen = s.seen

/-- No command writes message memory, MSGCAP, BUSY, PEND or a field of the model's own (R44). -/
theorem exec_sameEnvironment {i : Instr} {s t : State} (h : exec i s = .next t) :
    SameEnvironment s t := by
  cases exec_effect h with
  | sreset _ _ ht => cases ht; constructor <;> rfl
  | _ => constructor <;> rfl

/-- Only SRESET writes the registers the host owns (R44). -/
theorem exec_keeps_hostRegisters {i : Instr} {s t : State} (hi : i ≠ .sreset)
    (h : exec i s = .next t) : t.blk = s.blk ∧ t.key = s.key ∧ t.cfg = s.cfg ∧ t.mlen = s.mlen := by
  cases exec_effect h with
  | sreset hi' => exact absurd hi' hi
  | _ => exact ⟨rfl, rfl, rfl, rfl⟩

theorem writeReg_msg (s : State) (w : Word32) (r : HostReg) :
    (writeReg s w r).msg = s.msg ∧ (writeReg s w r).msgcap = s.msgcap := by
  cases r <;> exact ⟨rfl, rfl⟩

/-- A property that the parts of every transition keep is kept by every step (R74). -/
theorem step_keeps {P : State → Prop} {s t : State} (h : step s = .next t) (hs : P s)
    (schedule : ∀ s rest, P s → P { s with schedule := rest })
    (illegal : ∀ s, P s → P (raise .errIllegal s))
    (command : ∀ i s t, P s → exec i s = .next t → P t)
    (completed : ∀ s, P s → P (complete s))
    (read : ∀ s v, P s → P (returned v s))
    (write : ∀ s w r, P s → P (writeReg s w r))
    (msgWrite : ∀ s x b, x < s.msgcap.toNat → P s → P { s with msg := Memory.write s.msg x b })
    (powerOn : ∀ s, P s → P (powerOnReset s)) : P t := by
  have turn {u v : State} (hu : P u) (hv : engineTurn u = .next v) : P v := by
    obtain ⟨_, hv⟩ | ⟨_, rfl⟩ := engineTurn_cases hv
    · obtain ⟨_, _, rfl⟩ | ⟨i, w, _, hw, rfl⟩ := engineStep_cases hv
      · exact completed _ (illegal _ hu)
      · exact completed _ (command i u w hu hw)
    · exact hu
  obtain ⟨_, h⟩ | ⟨rest, _, h⟩ | ⟨a, rest, _, h⟩ | ⟨rest, _, rfl⟩ := step_cases h
  · exact turn hs h
  · exact turn (schedule s rest hs) h
  · have hr := schedule s rest hs
    obtain ⟨v, rfl⟩ | ⟨w, o, _, rfl⟩ | ⟨x, b, _, hx, rfl⟩ := performAccess_cases (hostAccess_cases h).2
    · exact read _ v hr
    · exact write _ w _ hr
    · exact msgWrite _ x b hx hr
  · exact powerOn _ (schedule s rest hs)

/-- A command keeps every byte of message memory (R14, R38). -/
theorem exec_msgByte {i : Instr} {s t : State} (h : exec i s = .next t) (a : Nat) :
    msgByte t a = msgByte s a :=
  have env := exec_sameEnvironment h
  msgByte_congr env.msg env.powerOns a

end Sys2Proof.Machine
end

section
/-! PROOF. Message memory over a step, and the state after reset. -/

namespace Sys2Proof.Machine

/-- `MemoryInv` reads message memory and MSGCAP alone. -/
theorem memoryInv_congr {s t : State} (hs : MemoryInv s) (hm : t.msg = s.msg)
    (hc : t.msgcap = s.msgcap) : MemoryInv t :=
  ⟨hm ▸ hs.canonical, hm ▸ hc ▸ hs.inside, hc ▸ hs.capacity⟩

/-- A host write of a byte of MSG keeps the canonical form and stays inside MSG (R66). -/
theorem memoryInv_write {s : State} (hs : MemoryInv s) {x : Nat} (b : Byte)
    (hx : x < s.msgcap.toNat) : MemoryInv { s with msg := Memory.write s.msg x b } where
  canonical := wf_write s.msg x b hs.canonical
  inside c hc := by
    obtain rfl | hc := mem_write hc
    · exact hx
    · exact hs.inside c hc
  capacity := hs.capacity

/-- Empty message memory meets the invariant, whatever the capacity. -/
theorem memoryInv_empty {s : State} (hm : s.msg = []) (hc : s.msgcap ≠ 0) : MemoryInv s where
  canonical := by rw [hm]; rfl
  inside := by simp [hm]
  capacity := hc

/-- Settles O40: only a host write to MSG, which `memoryInv_write` covers, and a power-on reset, which empties
the list of written bytes, touch message memory, and nothing touches MSGCAP. -/
theorem stepKeepsMemoryInv : Obligations.StepKeepsMemoryInv := by
  intro s t hs h
  refine step_keeps (P := fun u => MemoryInv u ∧ u.msgcap = s.msgcap) h ⟨hs, rfl⟩
    (schedule := fun u _ hu => ⟨memoryInv_congr hu.1 rfl rfl, hu.2⟩)
    (illegal := fun u hu => ⟨memoryInv_congr hu.1 rfl rfl, hu.2⟩)
    (command := fun i u v hu hv => ?_)
    (completed := fun u hu => ⟨memoryInv_congr hu.1 rfl rfl, hu.2⟩)
    (read := fun u v hu => ⟨memoryInv_congr hu.1 rfl rfl, hu.2⟩)
    (write := fun u w r hu => ?_)
    (msgWrite := fun u x b hx hu => ⟨memoryInv_write hu.1 b hx, hu.2⟩)
    (powerOn := fun u hu => ⟨memoryInv_empty rfl hu.1.capacity, hu.2⟩)
  · have env := exec_sameEnvironment hv
    exact ⟨memoryInv_congr hu.1 env.msg env.msgcap, env.msgcap.trans hu.2⟩
  · obtain ⟨hm, hc⟩ := writeReg_msg u w r
    exact ⟨memoryInv_congr hu.1 hm hc, hc.trans hu.2⟩

end Sys2Proof.Machine
end

section
/-! PROOF. What every command leaves unchanged (R44), and the phase after it (R33). -/

namespace Sys2Proof.Machine

/-- A precondition can fail with ERR_SEQ for no command but COMPRESS, PAD, FINAL, SERIALIZE and ENCODE (R401). -/
theorem seqFails_op {i : Instr} {s : State} (h : seqFails i s = true) :
    i.fields.1 ∈ [Op.compress, .pad, .final, .serialize, .encodeDigest] := by
  unfold seqFails at h
  split at h <;> simp_all

theorem activeFor_phase {s : State} {a : Alg} (h : activeFor s a = true) : s.phase = .active :=
  ((activeFor_iff s a).1 h).1

theorem activeFor_alg {s : State} {a : Alg} (h : activeFor s a = true) : s.ctx.alg = a :=
  ((activeFor_iff s a).1 h).2

/-- A failed configuration check has one of the two codes of R405. -/
theorem configFault_code {s : State} {c : Code} (h : configFault s = some c) :
    c = .errDlen ∨ c = .errKlen := by
  obtain ⟨h', _⟩ | ⟨h', _⟩ | ⟨h', _⟩ := configFault_cases s <;> simp_all

/-- Settles O26, column by column of R44: `exec_effect` lists what each operation writes, and an operation
that is in a column's list writes no register of that column. -/
theorem commandFrame : Obligations.CommandFrame := by
  intro i s t h
  have env := exec_sameEnvironment h
  refine ⟨?_, ?_, ?_, ?_, ?_, ?_, fun hi => exec_keeps_hostRegisters hi h, exec_msgByte h,
    env.msgcap, env.busy, env.pend, env.msg, env.powerOns, env.draws, env.schedule, env.seen⟩
  all_goals
    intro hop
    cases exec_effect h with
    | errSeq | errLen | errMlen => simp
    | errConfig hi => obtain rfl | rfl := hi <;> simp at hop
    | nop hi | sreset hi | init _ _ hi | initBlake hi | compress _ _ hi | compressBlake hi
    | pad _ _ _ hi | padBlake _ hi | final _ _ _ hi | finalBlake _ hi | serialize _ hi | encode hi
    | hash _ _ hi | hashBlake hi => subst hi; simp at hop ⊢

/-- An error that is no configuration error keeps the phase, whatever the operation but SRESET (R33). -/
theorem phaseAfter_atomic {op : Op} {c : Code} (p : Phase) (hop : op ≠ .sreset)
    (hc : c ∈ [Code.errIllegal, .errSeq, .errLen, .errMlen]) : phaseAfter op c p = p := by
  cases op <;> cases c <;> simp [phaseAfter] at hop hc ⊢

/-- A configuration error ends in IDLE, whatever the operation (R33, R405). -/
theorem phaseAfter_configFault (op : Op) {c : Code} (p : Phase) (hc : c = .errDlen ∨ c = .errKlen) :
    phaseAfter op c p = .idle := by
  obtain rfl | rfl := hc <;> cases op <;> rfl

/-- The phase after a command is what R33's table says. -/
theorem exec_phase {i : Instr} {s t : State} (h : exec i s = .next t) :
    t.phase = phaseAfter i.fields.1 t.code s.phase := by
  cases exec_effect h with
  | errSeq hf =>
    refine (phaseAfter_atomic s.phase (fun hop => ?_) (by simp)).symm
    have := seqFails_op hf
    simp [hop] at this
  | errLen a n hi => obtain rfl | rfl := hi <;> exact (phaseAfter_atomic s.phase (by simp) (by simp)).symm
  | errMlen a hi => subst hi; exact (phaseAfter_atomic s.phase (by simp) (by simp)).symm
  | errConfig _ c hc => exact (phaseAfter_configFault _ s.phase (configFault_code hc)).symm
  | sreset hi _ ht => subst hi; cases ht; rfl
  | nop hi | init _ _ hi | initBlake hi | compress _ _ hi | compressBlake hi | pad _ _ _ hi
  | padBlake _ hi | final _ _ _ hi | finalBlake _ hi | serialize _ hi | encode hi | hash _ _ hi
  | hashBlake hi => subst hi; simp [phaseAfter]

/-- COMPRESS, PAD and FINAL end with OK only when no precondition failed. -/
theorem exec_ok_seq {i : Instr} {s t : State} (h : exec i s = .next t) (hok : t.code = .ok)
    (hop : i.fields.1 ∈ [Op.compress, .pad, .final]) : s.phase = .active := by
  cases exec_effect h with
  | errSeq => simp at hok
  | errLen _ _ _ ha | compress _ _ _ ha | compressBlake _ ha | pad _ _ _ _ ha | padBlake _ _ ha
  | final _ _ _ _ ha | finalBlake _ _ ha => exact activeFor_phase ha
  | errConfig hi => obtain rfl | rfl := hi <;> simp at hop
  | nop hi | sreset hi | errMlen _ hi | init _ _ hi | initBlake hi | serialize _ hi | encode hi
  | hash _ _ hi | hashBlake hi => subst hi; simp at hop

/-- SERIALIZE ends with OK only in an open context. -/
theorem exec_ok_open {i : Instr} {s t : State} (h : exec i s = .next t) (hok : t.code = .ok)
    (hop : i.fields.1 = .serialize) : s.phase = .active ∨ s.phase = .done := by
  cases exec_effect h with
  | errSeq => simp at hok
  | serialize a _ ho =>
    have hp := ((openFor_iff _ _).1 ho).1
    cases h' : s.phase with
    | idle => exact absurd h' hp
    | active => exact .inl rfl
    | done => exact .inr rfl
  | errConfig hi | errLen _ _ hi => obtain rfl | rfl := hi <;> simp at hop
  | nop hi | sreset hi | errMlen _ hi | init _ _ hi | initBlake hi | compress _ _ hi
  | compressBlake hi | pad _ _ _ hi | padBlake _ hi | final _ _ _ hi | finalBlake _ hi | encode hi
  | hash _ _ hi | hashBlake hi => subst hi; simp at hop

/-- Settles O27: R33's table is `exec_phase`, and an OK rules out the failed preconditions of R380. -/
theorem phaseTransitions : Obligations.PhaseTransitions := fun _ _ _ h =>
  ⟨exec_phase h, exec_ok_seq h, exec_ok_open h⟩

end Sys2Proof.Machine
end

section
/-! PROOF. The unused registers of H and the high halves of a 32-bit algorithm's are 0 (R21). -/

namespace Sys2Proof.Machine

/-- What R21 says of the register file `h` under algorithm `a`: `registersClean` of a state is
`cleanFor` of its CTX.ALG and H. -/
def cleanFor (a : Alg) (h : RegFile) : Prop :=
  ∀ i : Fin 8, (stateWords a ≤ i.val → h[i] = 0) ∧
    (wordBytes a = 4 → (h[i]).extractLsb' 32 32 = 0)

theorem registersClean_iff (s : State) : registersClean s ↔ cleanFor s.ctx.alg s.h := Iff.rfl

/-- An algorithm with eight 64-bit words uses every bit of H. -/
theorem cleanFor_wide {a : Alg} (hn : stateWords a = 8) (hw : wordBytes a = 8) (h : RegFile) :
    cleanFor a h := fun i => ⟨fun hi => by omega, fun h4 => by omega⟩

theorem cleanFor_blake (h : RegFile) : cleanFor .blake2b h := cleanFor_wide rfl rfl h

/-- At most NW(a) words of 32 bits, zero-extended, are a clean register file. -/
theorem cleanFor_regsOf32 {a : Alg} {ws : List Word32} (hw : ws.length ≤ stateWords a) :
    cleanFor a (regsOf32 ws) := by
  intro i
  have hi : (regsOf32 ws)[i] = (ws.getD i 0).setWidth 64 := by
    simp only [regsOf32, Fin.getElem_fin, fill_getElem]
    exact List.getD_map ws 0 fun w => w.setWidth 64
  rw [hi]
  constructor
  · intro hge
    simp [List.getElem?_eq_none (hw.trans hge)]
  · intro _
    ext k hk
    simp

/-- `IV_a` uses the words of its algorithm alone. -/
theorem cleanFor_iv : ∀ e ∈ mdEngines, cleanFor e.alg e.iv :=
  forall_mdEngines (cleanFor_regsOf32 (by decide)) (cleanFor_regsOf32 (by decide))
    (cleanFor_regsOf32 (by decide)) (cleanFor_regsOf32 (by decide)) (cleanFor_wide rfl rfl _)
    (cleanFor_regsOf32 (by decide))

/-- Every compression zeroes what its algorithm does not use (R21; log entry 7). -/
theorem cleanFor_compress (h : RegFile) (b : List Byte) :
    ∀ e ∈ mdEngines, cleanFor e.alg (e.compress h b) :=
  forall_mdEngines (cleanFor_regsOf32 (Nat.le_refl 4)) (cleanFor_regsOf32 (Nat.le_refl 4))
    (cleanFor_regsOf32 (Nat.le_refl 5)) (cleanFor_regsOf32 (Nat.le_refl 8)) (cleanFor_wide rfl rfl _)
    (cleanFor_regsOf32 (Nat.le_refl 5))

/-- One block is enough: whatever H held before the first one. -/
theorem cleanFor_absorb {e : MdEngine} (he : e ∈ mdEngines) (bs k : Nat) (h : RegFile) (m : List Byte) :
    cleanFor e.alg (absorb e.compress bs (k + 1) h m) := by
  induction k generalizing h m with
  | zero => exact cleanFor_compress h _ e he
  | succ k ih => exact ih _ _

theorem blockSize_pos (a : Alg) : 0 < blockSize a := by cases a <;> decide

/-- A padding has at least one block, so absorbing it leaves a clean register file. -/
theorem cleanFor_absorbAll_mdPad {e : MdEngine} (he : e ∈ mdEngines) (h : RegFile) {tail : List Byte}
    (total : Nat) (hn : tail.length < blockSize e.alg) :
    cleanFor e.alg (absorbAll e h (mdPad e.alg tail total)) := by
  have hl : blockSize e.alg ≤ (mdPad e.alg tail total).length := by
    rw [mdPad_blocks (mdFamily_alg e he) tail total hn]; split <;> omega
  obtain ⟨k, hk⟩ := Nat.exists_eq_succ_of_ne_zero
    (Nat.div_pos hl (blockSize_pos e.alg)).ne'
  rw [absorbAll, hk]
  exact cleanFor_absorb he _ k h _

/-- The tail operand of an MD-family command whose length check passed. -/
theorem tailOperand_length_lt {a : Alg} {n : Nat} (s : State) (hn : n < blockSize a) :
    (tailOperand s n).length < blockSize a := by
  rw [tailOperand_length]; omega

/-- Settles O28: the last thing INIT, COMPRESS, FINAL and HASH write to H is `IV_a` or the answer of a
compression, and both are clean. -/
theorem unusedRegistersZero : Obligations.UnusedRegistersZero := by
  intro i s t h hok hop
  change t.ctx.alg = i.fields.2.1 ∧ cleanFor i.fields.2.1 t.h
  cases exec_effect h with
  | errSeq | errLen | errMlen => simp at hok
  | errConfig _ c hc => obtain rfl | rfl := configFault_code hc <;> simp at hok
  | nop hi | sreset hi | encode hi | pad _ _ _ hi | padBlake _ hi | serialize _ hi =>
    subst hi; simp at hop
  | init e he hi => subst hi; simpa using cleanFor_iv e he
  | initBlake hi => subst hi; simpa using cleanFor_blake _
  | compress e he hi ha =>
    subst hi; simpa using ⟨activeFor_alg ha, cleanFor_compress s.h _ e he⟩
  | compressBlake hi ha =>
    subst hi; simpa using ⟨activeFor_alg ha, cleanFor_blake _⟩
  | final e n he hi ha hn =>
    subst hi
    simpa using ⟨activeFor_alg ha, cleanFor_absorbAll_mdPad he s.h _ (tailOperand_length_lt s hn)⟩
  | finalBlake n hi ha =>
    subst hi; simpa using ⟨activeFor_alg ha, cleanFor_blake _⟩
  | hash e he hi _ p r hp hr =>
    subst hi hr hp
    simpa using cleanFor_absorbAll_mdPad he _ _ (messageTail_length (mdFamily_alg e he) _).2
  | hashBlake hi => subst hi; simpa using cleanFor_blake _

end Sys2Proof.Machine
end

section
/-! PROOF. The invariant of the engine's registers: one rule per operation that writes them. -/

namespace Sys2Proof.Machine

section
variable {s : State}

/-- `ContextInv` reads H, CTX, PADBUF, DIGEST, HEX and the phase: every other field is free. -/
theorem contextInv_frame {blk : Buffer 128} {key : Buffer 64} {cfg : Cfg} {t : Word128} {mlen : Word64}
    {busy : Bool} {code : Code} {pend : Word32} {msgcap : Word64} {msg : Memory} {powerOns draws : Nat}
    {schedule : List Event} {seen : List Word32} (hs : ContextInv s) :
    ContextInv
      { s with
        t := t, blk := blk, key := key, cfg := cfg, mlen := mlen, busy := busy, code := code
        pend := pend, msgcap := msgcap, msg := msg, powerOns := powerOns, draws := draws
        schedule := schedule, seen := seen } :=
  ⟨hs.ctx, hs.registers, hs.padding, hs.digest, hs.hex, hs.phase⟩

theorem contextInv_raise (c : Code) (hs : ContextInv s) : ContextInv (raise c s) :=
  contextInv_frame hs

/-- No register the host can write is one of the engine's (R63). -/
theorem contextInv_writeReg (w : Word32) (r : HostReg) (hs : ContextInv s) :
    ContextInv (writeReg s w r) := by
  cases r <;> exact contextInv_frame hs

/-- An empty DIGEST. -/
theorem digestClean_empty (hd : s.diglen = 0) (hb : s.digest = fill 64 []) : digestClean s :=
  ⟨.inl hd, fun i _ => by simp [hb]⟩

/-- A legal context's serialization in DIGEST, with its length in DIGLEN. -/
theorem digestFlag_serialize {c : Ctx} (hc : ctxLegal c) (h : RegFile) :
    (digestFlag (serialize c h)).toNat = digestLength c := by
  obtain ⟨hl, hle⟩ := serialize_length_legal hc h
  rw [digestFlag, hl, BitVec.toNat_ofNat]
  omega

theorem digestClean_serialize (hc : ctxLegal s.ctx) (h : RegFile)
    (hd : s.diglen = digestFlag (serialize s.ctx h)) (hb : s.digest = fill 64 (serialize s.ctx h)) :
    digestClean s := by
  have hlen : s.diglen.toNat = digestLength s.ctx := hd ▸ digestFlag_serialize hc h
  refine ⟨.inr hlen, fun i hi => ?_⟩
  have hge : (serialize s.ctx h).length ≤ i.val := by
    rwa [(serialize_length_legal hc h).1, ← hlen]
  simp [hb, fill_getElem, List.getElem?_eq_none hge]

/-- Zeros fill a buffer past the end of what it was filled with. -/
theorem paddingClean_fill {p : List Byte} {k : Nat} (hk : k ≤ 2)
    (hl : p.length = k * blockSize s.ctx.alg) (hc : s.padcnt = padCount s.ctx.alg p)
    (hb : s.padbuf = fill 256 p) : paddingClean s := by
  have hcnt : s.padcnt.toNat = k := by
    rw [hc, padCount, hl, Nat.mul_div_cancel _ (blockSize_pos _), BitVec.toNat_ofNat]
    omega
  refine ⟨hcnt ▸ hk, fun i hi => ?_⟩
  have hge : p.length ≤ i.val := by rwa [hl, ← hcnt]
  simp [hb, fill_getElem, List.getElem?_eq_none hge]

/-- An empty PADBUF. -/
theorem paddingClean_empty (hc : s.padcnt = 0) (hb : s.padbuf = fill 256 []) : paddingClean s :=
  ⟨by simp [hc], fun i _ => by simp [hb]⟩

/-- The padding of a tail that is shorter than a block is one block or two (R124). -/
theorem mdPad_blockCount {a : Alg} (ha : a ∈ mdFamily) {tail : List Byte} (total : Nat)
    (hn : tail.length < blockSize a) :
    ∃ k ≤ 2, (mdPad a tail total).length = k * blockSize a := by
  rw [mdPad_blocks ha tail total hn]
  split
  · exact ⟨1, by omega, by omega⟩
  · exact ⟨2, by omega, rfl⟩

/-- BLAKE2b's padded block is one block (R127). -/
theorem blakePad_blockCount {tail : List Byte} (hn : tail.length ≤ 128) :
    ∃ k ≤ 2, (blakePad tail).length = k * blockSize .blake2b :=
  ⟨1, by omega, blakePad_length tail hn⟩

/-- A configuration error leaves no digest, and the old context in IDLE (R405). -/
theorem contextInv_configError (c : Code) (hs : ContextInv s) : ContextInv (configError c s) where
  ctx := hs.ctx
  registers := hs.registers
  padding := hs.padding
  digest := digestClean_empty rfl rfl
  hex := .inl ⟨rfl, rfl⟩
  phase := ⟨fun _ => rfl, nofun⟩

/-- INIT opens a context with no padding and no digest. -/
theorem contextInv_openContext (s : State) {c : Ctx} {h : RegFile} (hc : ctxLegal c)
    (hh : cleanFor c.alg h) : ContextInv (openContext c h s) where
  ctx := hc
  registers := hh
  padding := paddingClean_empty rfl rfl
  digest := digestClean_empty rfl rfl
  hex := .inl ⟨rfl, rfl⟩
  phase := ⟨nofun, nofun⟩

/-- COMPRESS in an ACTIVE context. -/
theorem contextInv_compress {h : RegFile} (t : Word128) (hs : ContextInv s)
    (hp : s.phase = .active) (hh : cleanFor s.ctx.alg h) :
    ContextInv { s with h := h, t := t, code := .ok } where
  ctx := hs.ctx
  registers := hh
  padding := hs.padding
  digest := hs.digest
  hex := hs.hex
  phase := ⟨hs.phase.1, fun hd => by simp [hp] at hd⟩

/-- PAD stores one block or two. -/
theorem contextInv_storePadding {p : List Byte} (hs : ContextInv s)
    (hp : ∃ k ≤ 2, p.length = k * blockSize s.ctx.alg) :
    ContextInv { storePadding s.ctx.alg p s with code := .ok } where
  ctx := hs.ctx
  registers := hs.registers
  padding := have ⟨_, hk, hl⟩ := hp; paddingClean_fill hk hl rfl rfl
  digest := hs.digest
  hex := hs.hex
  phase := hs.phase

/-- SERIALIZE stores the digest of the open context and clears HEX. -/
theorem contextInv_storeDigest (hs : ContextInv s) (hp : s.phase ≠ .idle) :
    ContextInv { storeDigest (serialize s.ctx s.h) s with code := .ok } where
  ctx := hs.ctx
  registers := hs.registers
  padding := hs.padding
  digest := digestClean_serialize hs.ctx s.h rfl rfl
  hex := .inl ⟨rfl, rfl⟩
  phase := ⟨fun hi => absurd hi hp, fun _ => ⟨digestFlag_serialize hs.ctx s.h, rfl⟩⟩

/-- FINAL and HASH close a context with its padding and its digest. -/
theorem contextInv_closeContext (s : State) {c : Ctx} {h : RegFile} (t : Word128) {p : List Byte}
    (hc : ctxLegal c) (hh : cleanFor c.alg h) (hp : ∃ k ≤ 2, p.length = k * blockSize c.alg) :
    ContextInv (closeContext c h t p s) where
  ctx := hc
  registers := hh
  padding := have ⟨_, hk, hl⟩ := hp; paddingClean_fill hk hl rfl rfl
  digest := digestClean_serialize hc h rfl rfl
  hex := .inl ⟨rfl, rfl⟩
  phase := ⟨nofun, fun _ => ⟨digestFlag_serialize hc h, rfl⟩⟩

/-- DIGLEN is at most 64, so HEXLEN holds twice of it. -/
theorem diglen_le (hs : ContextInv s) : s.diglen.toNat ≤ 64 := by
  obtain h0 | hl := hs.digest.1
  · simp [h0]
  · rw [hl]; exact (serialize_length_legal hs.ctx s.h).2

/-- ENCODE, and the end of HASH: the rendering of the current digest in HEX. -/
theorem contextInv_storeHex (hs : ContextInv s) :
    ContextInv (storeHex (hexText (prefixOf s.digest s.diglen.toNat)) s) where
  ctx := hs.ctx
  registers := hs.registers
  padding := hs.padding
  digest := hs.digest
  hex := by
    refine .inr ⟨?_, rfl⟩
    have hle := diglen_le hs
    simp only [storeHex_hexlen, storeHex_diglen, hexFlag, hexText_length, prefixOf_length,
      BitVec.toNat_ofNat]
    omega
  phase := hs.phase

/-- After `closeContext` DIGEST and DIGLEN hold the serialization. -/
theorem prefixOf_closeContext (s : State) {c : Ctx} (hc : ctxLegal c) (h : RegFile) (t : Word128)
    (p : List Byte) :
    prefixOf (closeContext c h t p s).digest (closeContext c h t p s).diglen.toNat =
      serialize c h := by
  obtain ⟨hl, hle⟩ := serialize_length_legal hc h
  rw [closeContext_digest, closeContext_diglen, digestFlag_serialize hc, ← hl]
  exact prefixOf_fill _ (hl ▸ hle)

/-- HASH closes a context and renders its digest. -/
theorem contextInv_hash (s : State) {c : Ctx} {h : RegFile} (t : Word128) {p : List Byte}
    (hc : ctxLegal c) (hh : cleanFor c.alg h) (hp : ∃ k ≤ 2, p.length = k * blockSize c.alg) :
    ContextInv (storeHex (hexText (serialize c h)) (closeContext c h t p s)) := by
  rw [← prefixOf_closeContext s hc h t p]
  exact contextInv_storeHex (contextInv_closeContext s t hc hh hp)

/-- The reset values meet the invariant: everything is 0 and the phase is IDLE (R43). -/
theorem contextInv_reset : ContextInv State.reset where
  ctx := ⟨rfl, rfl⟩
  registers := fun i => by simp [State.reset]
  padding := paddingClean_empty rfl (fill_nil 8 256).symm
  digest := digestClean_empty rfl (fill_nil 8 64).symm
  hex := .inl ⟨rfl, (fill_nil 8 128).symm⟩
  phase := ⟨fun _ => rfl, nofun⟩

/-- A context of the MD family has no parameters (R364). -/
theorem ctxLegal_md {e : MdEngine} (he : e ∈ mdEngines) : ctxLegal ⟨e.alg, 0, 0⟩ := by
  rw [ctxLegal, if_neg (mdEngine_not_blake e he)]
  exact ⟨rfl, rfl⟩

/-- The parameters that pass the configuration checks are a legal context (R300). -/
theorem ctxLegal_blake (h : configFault s = none) : ctxLegal ⟨.blake2b, s.cfg.dlen, s.cfg.klen⟩ := by
  obtain ⟨h', _⟩ | ⟨h', _⟩ | ⟨_, ⟨hlo, hhi⟩, hk⟩ := configFault_cases s
  · simp [h] at h'
  · simp [h] at h'
  · exact ⟨hlo, hhi, hk⟩

/-- The input of HASH.BLAKE2B leaves at most one block after its leading blocks (R372). -/
theorem blakeTail_length (data : List Byte) : (data.drop (128 * blakeLeading data)).length ≤ 128 := by
  simp only [List.length_drop, blakeLeading]
  omega

/-- Every command keeps the invariant. -/
theorem exec_keeps_contextInv {i : Instr} {t : State} (hs : ContextInv s) (h : exec i s = .next t) :
    ContextInv t := by
  cases exec_effect h with
  | nop => exact contextInv_raise .ok hs
  | sreset _ _ ht => cases ht; exact contextInv_frame contextInv_reset
  | errSeq | errLen | errMlen => exact contextInv_raise _ hs
  | errConfig _ c => exact contextInv_configError c hs
  | encode => exact contextInv_raise .ok (contextInv_storeHex hs)
  | init e he => exact contextInv_openContext s (ctxLegal_md he) (cleanFor_iv e he)
  | initBlake _ hc => exact contextInv_openContext s (ctxLegal_blake hc) (cleanFor_blake _)
  | compress e he _ ha =>
    exact contextInv_compress _ hs (activeFor_phase ha) (activeFor_alg ha ▸ cleanFor_compress s.h _ e he)
  | compressBlake _ ha =>
    exact contextInv_compress _ hs (activeFor_phase ha) (activeFor_alg ha ▸ cleanFor_blake _)
  | pad a n hm _ ha hn =>
    obtain rfl := activeFor_alg ha
    exact contextInv_storePadding hs (mdPad_blockCount hm _ (tailOperand_length_lt s hn))
  | padBlake n _ ha =>
    have ha := activeFor_alg ha
    rw [← ha]
    exact contextInv_storePadding hs (ha ▸ blakePad_blockCount (by simp))
  | final e n he _ ha hn =>
    have ha := activeFor_alg ha
    have hn := tailOperand_length_lt s hn
    exact contextInv_closeContext s _ hs.ctx (ha ▸ cleanFor_absorbAll_mdPad he s.h _ hn)
      (ha ▸ mdPad_blockCount (mdFamily_alg e he) _ hn)
  | finalBlake n _ ha =>
    have ha := activeFor_alg ha
    exact contextInv_closeContext s _ hs.ctx (ha ▸ cleanFor_blake _) (ha ▸ blakePad_blockCount (by simp))
  | serialize a _ ho => exact contextInv_storeDigest hs ((openFor_iff _ _).1 ho).1
  | hash e he _ _ p r hp hr =>
    subst hr hp
    have hn := (messageTail_length (mdFamily_alg e he) (message s)).2
    exact contextInv_hash s _ (ctxLegal_md he) (cleanFor_absorbAll_mdPad he _ _ hn)
      (mdPad_blockCount (mdFamily_alg e he) _ hn)
  | hashBlake _ hc _ r tail ht =>
    subst ht
    exact contextInv_hash s _ (ctxLegal_blake hc) (cleanFor_blake _)
      (blakePad_blockCount (blakeTail_length _))

end

/-- Settles O39: `step_keeps` leaves the engine's own writes, which `exec_keeps_contextInv` covers operation by
operation; every other part of a step writes none of these registers or sets them all to their reset values. -/
theorem stepKeepsContextInv : Obligations.StepKeepsContextInv := fun _ _ hs h =>
  step_keeps h hs
    (schedule := fun _ _ => contextInv_frame)
    (illegal := fun _ => contextInv_raise .errIllegal)
    (command := fun _ _ _ => exec_keeps_contextInv)
    (completed := fun _ => contextInv_frame)
    (read := fun _ _ => contextInv_frame)
    (write := fun _ w r => contextInv_writeReg w r)
    (msgWrite := fun _ _ _ _ => contextInv_frame)
    (powerOn := fun _ _ => contextInv_frame contextInv_reset)

/-- Settles O38: the registers by `contextInv_reset`, message memory because no byte is written yet. -/
theorem resetMeetsInvariants : Obligations.ResetMeetsInvariants :=
  ⟨contextInv_reset, memoryInv_empty rfl (by decide)⟩

end Sys2Proof.Machine
end

section
/-! PROOF. What a command reads of the registers the host owns (R24, R25, R29, R30): `exec_withHost`. -/

namespace Sys2Proof.Machine

/-- The registers the host owns (R61): commands read them, and none but SRESET writes them. -/
structure HostRegs where
  blk : Buffer 128
  key : Buffer 64
  cfg : Cfg
  mlen : Word64

/-- `s` with the host's registers replaced. -/
def State.withHost (s : State) (r : HostRegs) : State :=
  { s with blk := r.blk, key := r.key, cfg := r.cfg, mlen := r.mlen }

/-- The host's registers as they stand. -/
def State.hostRegs (s : State) : HostRegs := ⟨s.blk, s.key, s.cfg, s.mlen⟩

section
variable {s t : State} {r : HostRegs}

@[simp] theorem activeFor_withHost (a : Alg) : activeFor (s.withHost r) a = activeFor s a := rfl

@[simp] theorem openFor_withHost (a : Alg) : openFor (s.withHost r) a = openFor s a := rfl

theorem configFault_withHost (hc : r.cfg = s.cfg) : configFault (s.withHost r) = configFault s := by
  simp [configFault, State.withHost, hc]

theorem messageTooLong_withHost (hm : r.mlen = s.mlen) :
    messageTooLong (s.withHost r) = messageTooLong s := by
  simp [messageTooLong, State.withHost, hm]

theorem message_withHost (hm : r.mlen = s.mlen) : message (s.withHost r) = message s := by
  rw [message, message, show (s.withHost r).mlen = s.mlen from hm]
  exact memRead_congr rfl rfl 0 _

/-- The key block is KEY[0..CFG.KLEN) (R298). -/
theorem blakeData_withHost (hk : prefixOf r.key s.cfg.klen.toNat = prefixOf s.key s.cfg.klen.toNat)
    (hc : r.cfg = s.cfg) (hm : r.mlen = s.mlen) : blakeData (s.withHost r) = blakeData s := by
  rw [blakeData, blakeData, message_withHost hm, show (s.withHost r).cfg = s.cfg from hc,
    show (s.withHost r).key = r.key from rfl, hk]

/-- COMPRESS reads its block and nothing else of the host's. -/
theorem compressMd_withHost {e : MdEngine}
    (hb : blockOperand (s.withHost r) e.alg = blockOperand s e.alg) (h : compressMd e s = .next t) :
    compressMd e (s.withHost r) = .next (t.withHost r) := by
  obtain ⟨ha, rfl⟩ | ⟨ha, rfl⟩ := compressMd_cases h <;> simp [compressMd, ha, hb] <;> rfl

theorem compressBlake_withHost
    (hb : blockOperand (s.withHost r) .blake2b = blockOperand s .blake2b)
    (h : compressBlake s = .next t) : compressBlake (s.withHost r) = .next (t.withHost r) := by
  obtain ⟨ha, rfl⟩ | ⟨ha, rfl⟩ := compressBlake_cases h <;> simp [compressBlake, ha, hb] <;> rfl

/-- PAD reads its tail and nothing else of the host's. -/
theorem padMd_withHost {a : Alg} {n : Nat} (hb : tailOperand (s.withHost r) n = tailOperand s n)
    (h : padMd a n s = .next t) : padMd a n (s.withHost r) = .next (t.withHost r) := by
  obtain ⟨ha, hn, rfl⟩ | ⟨ha, hn, rfl⟩ | ⟨ha, rfl⟩ := padMd_cases h <;> simp [padMd, *] <;> rfl

theorem padBlake_withHost {n : Nat} (hb : tailOperand (s.withHost r) n = tailOperand s n)
    (h : padBlake n s = .next t) : padBlake n (s.withHost r) = .next (t.withHost r) := by
  obtain ⟨ha, hn, rfl⟩ | ⟨ha, hn, rfl⟩ | ⟨ha, rfl⟩ := padBlake_cases h
  · simp [padBlake, tailTooLong, ha, hb, Nat.not_lt.2 hn]; rfl
  · simp [padBlake, tailTooLong, ha, hn]; rfl
  · simp [padBlake, ha]; rfl

/-- FINAL reads its tail and nothing else of the host's. -/
theorem finalMd_withHost {e : MdEngine} {n : Nat}
    (hb : tailOperand (s.withHost r) n = tailOperand s n) (h : finalMd e n s = .next t) :
    finalMd e n (s.withHost r) = .next (t.withHost r) := by
  obtain ⟨ha, hn, rfl⟩ | ⟨ha, hn, rfl⟩ | ⟨ha, rfl⟩ := finalMd_cases h <;> simp [finalMd, *] <;> rfl

theorem finalBlake_withHost {n : Nat} (hb : tailOperand (s.withHost r) n = tailOperand s n)
    (h : finalBlake n s = .next t) : finalBlake n (s.withHost r) = .next (t.withHost r) := by
  have hg : emptyTailRefused n (s.withHost r) = emptyTailRefused n s := rfl
  obtain ⟨ha, hn, hg', rfl⟩ | ⟨ha, hn, rfl⟩ | ⟨ha, rfl⟩ := finalBlake_cases h
  · simp [finalBlake, tailTooLong, ha, hb, hg, hg', Nat.not_lt.2 hn]; rfl
  · simp [finalBlake, tailTooLong, ha, hg, hn]; rfl
  · simp [finalBlake, ha]; rfl

/-- INIT.BLAKE2B reads CFG and nothing else of the host's. -/
theorem initBlake_withHost (hc : r.cfg = s.cfg) (h : initBlake s = .next t) :
    initBlake (s.withHost r) = .next (t.withHost r) := by
  have hf := configFault_withHost hc
  have hcfg : (s.withHost r).cfg = s.cfg := hc
  obtain ⟨hn, rfl⟩ | ⟨c, hn, rfl⟩ := initBlake_cases h <;> simp [initBlake, *] <;> rfl

/-- HASH of the MD family reads MLEN and nothing else of the host's. -/
theorem hashMd_withHost {e : MdEngine} (hm : r.mlen = s.mlen) (h : hashMd e s = .next t) :
    hashMd e (s.withHost r) = .next (t.withHost r) := by
  have hl := messageTooLong_withHost hm
  have hmsg := message_withHost hm
  have hmlen : (s.withHost r).mlen = s.mlen := hm
  obtain ⟨hn, rfl⟩ | ⟨hn, p, x, rfl, rfl, rfl⟩ := hashMd_cases h <;> simp [hashMd, *] <;> rfl

/-- HASH.BLAKE2B reads CFG, MLEN and the key bytes CFG.KLEN counts. -/
theorem hashBlake_withHost
    (hk : prefixOf r.key s.cfg.klen.toNat = prefixOf s.key s.cfg.klen.toNat)
    (hc : r.cfg = s.cfg) (hm : r.mlen = s.mlen) (h : hashBlake s = .next t) :
    hashBlake (s.withHost r) = .next (t.withHost r) := by
  have hf := configFault_withHost hc
  have hl := messageTooLong_withHost hm
  have hd := blakeData_withHost hk hc hm
  have hcfg : (s.withHost r).cfg = s.cfg := hc
  obtain ⟨c, hn, rfl⟩ | ⟨hn, hlen, rfl⟩ | ⟨hn, hlen, x, tail, rfl, rfl, rfl⟩ := hashBlake_cases h <;>
    simp [hashBlake, *] <;> rfl

/-- SERIALIZE and ENCODE read nothing of the host's. -/
theorem serializeTemplate_withHost {a : Alg} (h : serializeTemplate a s = .next t) :
    serializeTemplate a (s.withHost r) = .next (t.withHost r) := by
  obtain ⟨ho, rfl⟩ | ⟨ho, rfl⟩ := serializeTemplate_cases h <;> simp [serializeTemplate, ho] <;> rfl

theorem execEncodeDigest_withHost (h : execEncodeDigest s = .next t) :
    execEncodeDigest (s.withHost r) = .next (t.withHost r) := by
  obtain ⟨hd, rfl⟩ | ⟨hd, rfl⟩ := execEncodeDigest_cases h
  · exact if_neg hd
  · exact if_pos hd

theorem blkRead_compressOf (a : Alg) : blkRead (compressOf a) = blockSize a := by simp [blkRead]

theorem blkRead_padOf (a : Alg) (n : Nat) : blkRead (padOf a n) = n := by simp [blkRead]

theorem blkRead_finalOf (a : Alg) (n : Nat) : blkRead (finalOf a n) = n := by simp [blkRead]

/-- The host's registers `r` agree with those of `s` on everything the command `i` reads of them
(R24, R25, R29, R30). -/
structure ReadsAlike (i : Instr) (s : State) (r : HostRegs) : Prop where
  blk : prefixOf r.blk (blkRead i) = prefixOf s.blk (blkRead i)
  key : i = .hashBlake2b → prefixOf r.key s.cfg.klen.toNat = prefixOf s.key s.cfg.klen.toNat
  cfg : i = .initBlake2b ∨ i = .hashBlake2b → r.cfg = s.cfg
  mlen : i.fields.1 = .hash → r.mlen = s.mlen

/-- A command's result depends on the host's registers only through what the command reads of them. -/
theorem exec_withHost {i : Instr} (hi : i ≠ .sreset) (hr : ReadsAlike i s r) (h : exec i s = .next t) :
    exec i (s.withHost r) = .next (t.withHost r) := by
  rcases instr_family i with rfl | rfl | rfl | ⟨a, rfl⟩ | ⟨a, rfl⟩ | ⟨a, n, rfl⟩ | ⟨a, n, rfl⟩ |
    ⟨a, rfl⟩ | ⟨a, rfl⟩
  · cases h; rfl
  · exact absurd rfl hi
  · exact execEncodeDigest_withHost h
  · obtain rfl | ⟨e, he, rfl⟩ := alg_engine a
    · exact initBlake_withHost (hr.cfg (.inl rfl)) h
    · rw [exec_initOf _ e he] at h ⊢; cases h; rfl
  · have hb : prefixOf r.blk (blockSize a) = prefixOf s.blk (blockSize a) :=
      blkRead_compressOf a ▸ hr.blk
    obtain rfl | ⟨e, he, rfl⟩ := alg_engine a
    · exact compressBlake_withHost hb h
    · rw [exec_compressOf _ e he] at h ⊢; exact compressMd_withHost hb h
  · have hb : prefixOf r.blk n = prefixOf s.blk n := blkRead_padOf a n ▸ hr.blk
    obtain rfl | ⟨e, he, rfl⟩ := alg_engine a
    · exact padBlake_withHost hb h
    · rw [exec_padOf _ _ e he] at h ⊢; exact padMd_withHost hb h
  · have hb : prefixOf r.blk n = prefixOf s.blk n := blkRead_finalOf a n ▸ hr.blk
    obtain rfl | ⟨e, he, rfl⟩ := alg_engine a
    · exact finalBlake_withHost hb h
    · rw [exec_finalOf _ _ e he] at h ⊢; exact finalMd_withHost hb h
  · rw [exec_serializeOf] at h ⊢; exact serializeTemplate_withHost h
  · have hm := hr.mlen (by simp)
    obtain rfl | ⟨e, he, rfl⟩ := alg_engine a
    · exact hashBlake_withHost (hr.key rfl) (hr.cfg (.inr rfl)) hm h
    · rw [exec_hashOf _ e he] at h ⊢; exact hashMd_withHost hm h

/-- A replacement `f` of host registers that leaves what the command reads of them goes through the command
unchanged, since no command but SRESET writes them. -/
theorem exec_mapHost {i : Instr} (f : HostRegs → HostRegs) (hi : i ≠ .sreset)
    (h : exec i s = .next t) (hr : ReadsAlike i s (f s.hostRegs)) :
    exec i (s.withHost (f s.hostRegs)) = .next (t.withHost (f t.hostRegs)) := by
  obtain ⟨hblk, hkey, hcfg, hmlen⟩ := exec_keeps_hostRegisters hi h
  rw [State.hostRegs.eq_def t, hblk, hkey, hcfg, hmlen]
  exact exec_withHost hi hr h

end

/-- Settles O43: the case of `exec_mapHost` in which BLK alone is replaced. -/
theorem blkBytesPastOperandUnread : Obligations.BlkBytesPastOperandUnread := by
  intro i s t b hi hb h
  exact ⟨(exec_keeps_hostRegisters hi h).1,
    exec_mapHost (fun r => { r with blk := b }) hi h ⟨hb, fun _ => rfl, fun _ => rfl, fun _ => rfl⟩⟩

/-- Settles O44: the cases of `exec_mapHost` in which KEY, CFG or MLEN alone is replaced. -/
theorem hostRegistersReadOnlyByTheirCommands : Obligations.HostRegistersReadOnlyByTheirCommands := by
  intro i s t hi h
  refine ⟨fun k hk => ?_, fun c h1 h2 => ?_, fun m hm => ?_⟩
  · exact exec_mapHost (fun r => { r with key := k }) hi h ⟨rfl, hk, fun _ => rfl, fun _ => rfl⟩
  · exact exec_mapHost (fun r => { r with cfg := c }) hi h
      ⟨rfl, fun _ => rfl, fun hc => (hc.elim h1 h2).elim, fun _ => rfl⟩
  · exact exec_mapHost (fun r => { r with mlen := m }) hi h
      ⟨rfl, fun _ => rfl, fun _ => rfl, fun hh => absurd hh hm⟩

end Sys2Proof.Machine
end

section
/-! PROOF. The registers as the host reads and writes them (R29 to R32, R35), and their values after reset
(R43). -/

namespace Sys2Proof.Machine

/-- A 32-bit access at an aligned offset of the aperture has a meaning (R65). -/
theorem apertureRefusal_none {o : Nat} (ha : o % 4 = 0) (ho : o < 0x400) :
    apertureRefusal 32 o = none := by
  simp [apertureRefusal, ha, ho]

/-- While BUSY = 0 such a write is `writeReg` (R62, R452). -/
theorem hostAccess_write {s : State} (hb : s.busy = false) {o : Nat} (ha : o % 4 = 0) (ho : o < 0x400)
    (w : Word32) : hostAccess (.write 32 o w) s = .next (writeReg s w (regAt o)) := by
  simp [hostAccess, performAccess, hb, apertureRefusal_none ha ho]

/-- While BUSY = 0 such a read is `readReg` (R62, R452). -/
theorem hostAccess_read {s : State} (hb : s.busy = false) {o : Nat} (ha : o % 4 = 0) (ho : o < 0x400) :
    hostAccess (.read 32 o) s = .next (returned (readReg s (regAt o)) s) := by
  simp [hostAccess, performAccess, hb, apertureRefusal_none ha ho]

/-- While BUSY = 1 no access but a poll of STATUS has a meaning (R452). -/
theorem hostAccess_busy {s : State} (hb : s.busy = true) {a : HostAccess} (hp : isStatusPoll a = false) :
    hostAccess a s = .refused .accessWhileBusy := by
  simp [hostAccess, hb, hp]

/-- Settles O8: at offset 0 `regAt` answers CMD, whose write is `issue` and whose content reads 0. -/
theorem commandWriteIssues : Obligations.CommandWriteIssues := fun _ c =>
  ⟨fun hb => ⟨hostAccess_write hb rfl (by decide) c, hostAccess_read hb rfl (by decide)⟩,
    fun hb => hostAccess_busy hb rfl⟩

/-- A concatenation as a number: the upper part counts multiples of `2 ^ w`. -/
theorem toNat_append_eq {v w : Nat} (x : BitVec v) (y : BitVec w) :
    (x ++ y).toNat = x.toNat * 2 ^ w + y.toNat := by
  rw [BitVec.toNat_append, ← Nat.shiftLeft_add_eq_or_of_lt y.isLt, Nat.shiftLeft_eq]

/-- What a write to CFG leaves there is the word's bits 15:0 (R29). -/
theorem cfgOfWord_bits (w : Word32) :
    (0#16 ++ w.extractLsb' 8 8 ++ w.extractLsb' 0 8 : Word32) = w &&& 0x0000FFFF := by
  apply BitVec.eq_of_toNat_eq
  rw [BitVec.toNat_and, show (0x0000FFFF : Word32).toNat = 2 ^ 16 - 1 from rfl,
    Nat.and_two_pow_sub_one_eq_mod, toNat_append_eq, toNat_append_eq]
  simp only [BitVec.toNat_ofNat, BitVec.extractLsb'_toNat, Nat.shiftRight_eq_div_pow]
  omega

/-- Settles O52: the three writes by `hostAccess_write`, the halves of MLEN as numbers by `toNat_append_eq`. -/
theorem configurationWrites : Obligations.ConfigurationWrites := by
  intro s w hb
  refine ⟨⟨_, hostAccess_write hb rfl (by decide) w, rfl, cfgOfWord_bits w, rfl, rfl⟩,
    ⟨_, hostAccess_write hb rfl (by decide) w, rfl, ?_⟩,
    ⟨_, hostAccess_write hb rfl (by decide) w, rfl, ?_⟩⟩
  · refine (toNat_append_eq (s.mlen.extractLsb' 32 32) w).trans ?_
    simp only [BitVec.extractLsb'_toNat, Nat.shiftRight_eq_div_pow]
    omega
  · refine (toNat_append_eq w (s.mlen.extractLsb' 0 32)).trans ?_
    simp

/-- The lowest field of a packed word. -/
theorem field_lowest {v w : Nat} {hi : BitVec v} {x : BitVec w} : (hi ++ x).extractLsb' 0 w = x :=
  BitVec.extractLsb'_append_eq_right

/-- A field above the lowest one is a field of the rest of the word. -/
theorem field_above {v w start len : Nat} {hi : BitVec v} {lo : BitVec w} {x : BitVec len}
    (h : hi.extractLsb' (start - w) len = x) (hw : w ≤ start := by decide) :
    (hi ++ lo).extractLsb' start len = x :=
  (BitVec.extractLsb'_append_eq_of_le hw).trans h

/-- Settles O55: in each word a field is the lowest one, `field_lowest`, above as many fields as `field_above` is
used for; the uppermost field is what is left. -/
theorem packedRegisterFields : Obligations.PackedRegisterFields := by
  intro s
  refine ⟨⟨field_lowest, ?_, ?_, ?_, ?_, ?_, ?_, ?_, ?_⟩,
    ⟨field_lowest, ?_, ?_⟩, field_lowest, ?_, ?_, ?_⟩
  · exact field_above field_lowest
  · iterate 2 refine field_above ?_
    exact field_lowest
  · iterate 3 refine field_above ?_
    exact field_lowest
  · iterate 4 refine field_above ?_
    exact field_lowest
  · iterate 5 refine field_above ?_
    exact field_lowest
  · iterate 6 refine field_above ?_
    exact field_lowest
  · iterate 7 refine field_above ?_
    exact field_lowest
  · iterate 8 refine field_above ?_
    exact BitVec.extractLsb'_eq_self
  · exact field_above field_lowest
  · exact field_above (field_above BitVec.extractLsb'_eq_self)
  · exact field_above field_lowest
  · exact field_above (field_above field_lowest)
  · exact field_above (field_above (field_above BitVec.extractLsb'_eq_self))

/-- Settles O57: each field stands in `State.reset`; the packed words CTX and STATUS are evaluated. -/
theorem resetValues : Obligations.ResetValues := by
  refine ⟨rfl, rfl, rfl, rfl, rfl, rfl, rfl, rfl, rfl, rfl, rfl, rfl, rfl, ?_, rfl, rfl, rfl, ?_, rfl⟩
  · decide
  · decide

end Sys2Proof.Machine
end

section
/-! PROOF. The register map (R61): which register stands at an offset, and what the host's reads and writes of it
do (R62 to R64). -/

namespace Sys2Proof.Machine

/-! ### The offsets of the map -/

theorem regAt_t : ∀ k < 4, regAt (0x020 + 4 * k) = .t k := by decide

theorem regAt_hLo : ∀ i : Fin 8, regAt (0x040 + 8 * i.val) = .hLo i := by decide

theorem regAt_hHi : ∀ i : Fin 8, regAt (0x044 + 8 * i.val) = .hHi i := by decide

theorem regAt_digest : ∀ k < 16, regAt (0x080 + 4 * k) = .digest k := by decide

theorem regAt_blk : ∀ k < 32, regAt (0x100 + 4 * k) = .blk k := by decide

theorem regAt_key : ∀ k < 16, regAt (0x180 + 4 * k) = .key k := by decide

theorem regAt_padbuf : ∀ k < 64, regAt (0x200 + 4 * k) = .padbuf k := by decide

theorem regAt_hex : ∀ k < 32, regAt (0x300 + 4 * k) = .hex k := by decide

/-- The four reserved ranges of the map. -/
theorem regAt_reserved {o : Nat} (h : (0x030 ≤ o ∧ o < 0x040) ∨ (0x0C0 ≤ o ∧ o < 0x100) ∨
    (0x1C0 ≤ o ∧ o < 0x200) ∨ (0x380 ≤ o ∧ o < 0x400)) : regAt o = .reserved := by
  obtain h | h | h | h := h <;> simp (disch := omega) only [regAt, if_neg, if_pos]

/-- The registers a host write changes (R63). -/
def HostReg.writable : HostReg → Bool
  | .cmd | .cfg | .mlenLo | .mlenHi | .blk _ | .key _ => true
  | .status | .ctx | .msgcapLo | .msgcapHi | .t _ | .hLo _ | .hHi _ | .digest _ | .padbuf _ | .hex _
  | .reserved => false

/-- A write to any other register is ignored (R63, R64). -/
theorem writeReg_of_not_writable (s : State) (w : Word32) {r : HostReg} (h : r.writable = false) :
    writeReg s w r = s := by
  cases r with
  | cmd | cfg | mlenLo | mlenHi | blk | key => cases h
  | _ => rfl

/-- Where the writable registers stand: CMD, CFG, MLEN, and BLK up to KEY (R61). -/
theorem regAt_writable {o : Nat} : (regAt o).writable = true ↔
    o = 0x000 ∨ o = 0x008 ∨ o = 0x010 ∨ o = 0x014 ∨ (0x100 ≤ o ∧ o < 0x1C0) := by
  simp only [regAt, apply_ite HostReg.writable]
  simp [HostReg.writable]
  omega

/-- Settles O53: none of these offsets is one of a writable register. -/
theorem otherWritesIgnored : Obligations.OtherWritesIgnored := by
  intro s w o hb ha ho
  have hw : (regAt o).writable = false := by
    rw [← Bool.not_eq_true, regAt_writable]
    omega
  rw [hostAccess_write hb ha (by omega), writeReg_of_not_writable s w hw]

/-! ### Buffers as words -/

/-- Word `k` of a buffer is its bytes `4k` to `4k + 3`, the first one least significant (R62). -/
theorem bufferWord_eq {n : Nat} (b : Buffer n) {k : Nat} (h : 4 * k + 4 ≤ n) :
    bufferWord b k = b.toList.getD (4 * k + 3) 0 ++ b.toList.getD (4 * k + 2) 0 ++
      b.toList.getD (4 * k + 1) 0 ++ b.toList.getD (4 * k) 0 := by
  rw [bufferWord, take_drop_eq_map_getD (by simpa using h)]
  exact ofNat_fromLe_four ..

/-- The bytes a word write sets. -/
theorem setBufferWord_getElem?_same {n : Nat} (b : Buffer n) {k j : Nat} (w : Word32) (h : 4 * k + 4 ≤ n)
    (hj : j < 4) : (setBufferWord b k w).toList[4 * k + j]? = some (w.extractLsb' (8 * j) 8) := by
  have hlt : 4 * k + j < n := by omega
  simp only [setBufferWord, Vector.getElem?_toList, Vector.getElem?_setIfInBounds]
  interval_cases j <;> simp [show 4 * k < n by omega, hlt]

/-- The bytes it leaves. -/
theorem setBufferWord_getElem?_other {n : Nat} (b : Buffer n) {k x : Nat} (w : Word32)
    (hx : x < 4 * k ∨ 4 * k + 4 ≤ x) : (setBufferWord b k w).toList[x]? = b.toList[x]? := by
  simp only [setBufferWord, Vector.getElem?_toList]
  iterate 4 rw [Vector.getElem?_setIfInBounds_ne (by omega)]

/-- Settles O51: at these offsets stand BLK_k and KEY_k, whose write is `setBufferWord`. -/
theorem bufferWritesPackLittleEndian : Obligations.BufferWritesPackLittleEndian := by
  intro s w hb
  refine ⟨fun k hk => ⟨setBufferWord s.blk k w, ?_, ?_, ?_⟩,
    fun k hk => ⟨setBufferWord s.key k w, ?_, ?_, ?_⟩⟩
  · rw [hostAccess_write hb (by omega) (by omega), regAt_blk k hk, writeReg]
  · exact fun j => setBufferWord_getElem?_same s.blk w (by omega)
  · exact fun x => setBufferWord_getElem?_other s.blk w
  · rw [hostAccess_write hb (by omega) (by omega), regAt_key k hk, writeReg]
  · exact fun j => setBufferWord_getElem?_same s.key w (by omega)
  · exact fun x => setBufferWord_getElem?_other s.key w

/-- While BUSY = 0 a read at an aligned offset answers the content `v` of the register `r` that stands there. -/
theorem hostAccess_read_eq {s : State} (hb : s.busy = false) {o : Nat} {r : HostReg} {v : Word32}
    (hr : regAt o = r) (hv : readReg s r = v) (ha : o % 4 = 0 := by omega) (ho : o < 0x400 := by omega) :
    hostAccess (.read 32 o) s = .next { s with seen := v :: s.seen } := by
  subst hr hv
  exact hostAccess_read hb ha ho

/-- Settles O50: the register at each offset by the lemmas `regAt_…`, the words of the buffers by `bufferWord_eq`. -/
theorem registerMap : Obligations.RegisterMap := by
  intro s hb
  have hreg (i : Fin 8) : s.h.toList.getD i.val 0 = s.h[i] := by simp
  refine ⟨hostAccess_read_eq hb rfl rfl, hostAccess_read_eq hb rfl rfl, hostAccess_read_eq hb rfl rfl,
    hostAccess_read_eq hb rfl rfl, hostAccess_read_eq hb rfl rfl, hostAccess_read_eq hb rfl rfl,
    hostAccess_read_eq hb rfl rfl, hostAccess_read_eq hb rfl rfl, ?t, ?hLo, ?hHi, ?digest, ?blk, ?key,
    ?padbuf, ?hex, ?reserved⟩
  case t => exact fun k hk => hostAccess_read_eq hb (regAt_t k hk) rfl
  case hLo => exact fun i => hostAccess_read_eq hb (regAt_hLo i) (by rw [readReg, hreg])
  case hHi => exact fun i => hostAccess_read_eq hb (regAt_hHi i) (by rw [readReg, hreg])
  case digest => exact fun k hk => hostAccess_read_eq hb (regAt_digest k hk) (bufferWord_eq s.digest (by omega))
  case blk => exact fun k hk => hostAccess_read_eq hb (regAt_blk k hk) (bufferWord_eq s.blk (by omega))
  case key => exact fun k hk => hostAccess_read_eq hb (regAt_key k hk) (bufferWord_eq s.key (by omega))
  case padbuf => exact fun k hk => hostAccess_read_eq hb (regAt_padbuf k hk) (bufferWord_eq s.padbuf (by omega))
  case hex => exact fun k hk => hostAccess_read_eq hb (regAt_hex k hk) (bufferWord_eq s.hex (by omega))
  case reserved => exact fun o ha ho => hostAccess_read_eq hb (regAt_reserved ho) rfl

end Sys2Proof.Machine
end

section
/-! PROOF. Host accesses as transitions: which are refused (R65, R66, R452), what reads leave (R72), and message
memory (R66). -/

namespace Sys2Proof.Machine

/-- An aperture access has a meaning unless its width, its alignment or its offset is wrong (R65). -/
theorem apertureRefusal_eq_none {w o : Nat} :
    apertureRefusal w o = none ↔ ¬(w ≠ 32 ∨ o % 4 ≠ 0 ∨ 0x400 ≤ o) := by
  unfold apertureRefusal
  split_ifs <;> simp <;> omega

/-- The one poll of STATUS is the 32-bit read at its offset (R452). -/
theorem isStatusPoll_read {w o : Nat} : isStatusPoll (.read w o) = false ↔ ¬(w = 32 ∧ o = 0x004) := by
  simp [isStatusPoll]

/-- BUSY forbids every access but a poll of STATUS (R452). -/
theorem hostAccess_allowed {a : HostAccess} {s : State} (h : s.busy = false ∨ isStatusPoll a = true) :
    hostAccess a s = performAccess a s := by
  unfold hostAccess
  obtain h | h := h <;> simp [h]

/-- An access is refused by BUSY or for itself. -/
theorem hostAccess_refused_iff {a : HostAccess} {s : State} : (∃ r, hostAccess a s = .refused r) ↔
    (s.busy = true ∧ isStatusPoll a = false) ∨ ∃ r, performAccess a s = .refused r := by
  by_cases h : s.busy = true ∧ isStatusPoll a = false
  · simp [hostAccess_busy h.1 h.2, h]
  · rw [hostAccess_allowed (by simpa [or_iff_not_imp_left] using h)]
    simp [h]

/-- BUSY aside, an aperture access is refused for its width, its alignment or its offset (R65). -/
theorem performAccess_read_refused {s : State} {w o : Nat} :
    (∃ r, performAccess (.read w o) s = .refused r) ↔ w ≠ 32 ∨ o % 4 ≠ 0 ∨ 0x400 ≤ o := by
  rw [← not_iff_not, ← apertureRefusal_eq_none, performAccess]
  cases apertureRefusal w o <;> simp

theorem performAccess_write_refused {s : State} {w o : Nat} {v : Word32} :
    (∃ r, performAccess (.write w o v) s = .refused r) ↔ w ≠ 32 ∨ o % 4 ≠ 0 ∨ 0x400 ≤ o := by
  rw [← not_iff_not, ← apertureRefusal_eq_none, performAccess]
  cases apertureRefusal w o <;> simp

/-- BUSY aside, an access to message memory is refused for its address (R66). -/
theorem performAccess_msgRead_refused {s : State} {x : Nat} :
    (∃ r, performAccess (.msgRead x) s = .refused r) ↔ s.msgcap.toNat ≤ x := by
  rw [performAccess]
  split <;> simp [*]

theorem performAccess_msgWrite_refused {s : State} {x : Nat} {b : Byte} :
    (∃ r, performAccess (.msgWrite x b) s = .refused r) ↔ s.msgcap.toNat ≤ x := by
  rw [performAccess]
  split <;> simp [*]

/-- Settles O48, access by access: `hostAccess_refused_iff` sets BUSY apart, which of all accesses only the poll of
STATUS may ignore. -/
theorem refusedAccesses : Obligations.RefusedAccesses := by
  intro a s
  refine ⟨hostAccess_refused_iff.trans ?_, nofun⟩
  cases a with
  | read w o =>
    rw [performAccess_read_refused, isStatusPoll_read]
    tauto
  | write w o v =>
    have hp : isStatusPoll (.write w o v) = false := rfl
    rw [performAccess_write_refused]
    tauto
  | msgRead x =>
    rw [performAccess_msgRead_refused]
    simp [isStatusPoll, or_comm]
  | msgWrite x b =>
    rw [performAccess_msgWrite_refused]
    simp [isStatusPoll, or_comm]

/-- No register shows what the host has read. -/
@[simp] theorem readReg_returned (v : Word32) (s : State) (r : HostReg) :
    readReg (returned v s) r = readReg s r := by cases r <;> rfl

@[simp] theorem msgByte_returned (v : Word32) (s : State) (x : Nat) :
    msgByte (returned v s) x = msgByte s x := msgByte_congr rfl rfl x

/-- A read answers a value and records it, and after any other read it answers the same value. -/
theorem performAccess_read_again {a : HostAccess} {s t : State}
    (ha : (∃ w o, a = .read w o) ∨ ∃ x, a = .msgRead x) (h : performAccess a s = .next t) :
    ∃ v, t = returned v s ∧ ∀ u, performAccess a (returned u s) = .next (returned v (returned u s)) := by
  obtain ⟨w, o, rfl⟩ | ⟨x, rfl⟩ := ha
  · simp only [performAccess, readReg_returned] at h ⊢
    split at h
    · cases h
    · exact ⟨_, by simpa using h.symm, fun _ => rfl⟩
  · simp only [performAccess, msgByte_returned, returned_msgcap] at h ⊢
    split at h
    · cases h
    · exact ⟨_, by simpa using h.symm, fun _ => if_neg ‹_›⟩

/-- Settles O49: BUSY, which alone could forbid the second read, is not written by the first. -/
theorem readsHaveNoSideEffect : Obligations.ReadsHaveNoSideEffect := by
  intro s t a ha h
  obtain ⟨hallowed, hp⟩ := hostAccess_cases h
  obtain ⟨v, rfl, again⟩ := performAccess_read_again ha hp
  exact ⟨v, rfl, (hostAccess_allowed (s := returned v s) hallowed).trans (again v)⟩

theorem msgByte_write_same (s : State) (x : Nat) (b : Byte) :
    msgByte { s with msg := Memory.write s.msg x b } x = b := by
  simp [msgByte, lookup_write_same]

theorem msgByte_write_other (s : State) {x y : Nat} (b : Byte) (h : y ≠ x) :
    msgByte { s with msg := Memory.write s.msg x b } y = msgByte s y := by
  simp [msgByte, lookup_write_other s.msg b h]

/-- Settles O54: an access below MSGCAP is performed, and the laws of `Memory.write` say what the bytes are. -/
theorem messageMemoryAccess : Obligations.MessageMemoryAccess := by
  intro s x b hb hx
  have hcap : ¬s.msgcap.toNat ≤ x := Nat.not_le.2 hx
  exact ⟨(hostAccess_allowed (.inl hb)).trans (if_neg hcap), _,
    (hostAccess_allowed (.inl hb)).trans (if_neg hcap), rfl, msgByte_write_same s x b,
    fun _ => msgByte_write_other s b⟩

end Sys2Proof.Machine
end

section
/-! PROOF. SHA-256's digest as the host reads it (R70, R337). -/

namespace Sys2Proof.Machine

/-- The four bytes of a word's low half, the most significant one first (R12). -/
theorem toBe_four (w : Word64) : toBe w.toNat 4 =
    [w.extractLsb' 24 8, w.extractLsb' 16 8, w.extractLsb' 8 8, w.extractLsb' 0 8] := by
  simp [toBe, toLe, ← BitVec.toNat_inj, Nat.shiftRight_eq_div_pow, Nat.div_div_eq_div_mul]

/-- SHA-256's serialization begins with the bytes of H[0] (R331). -/
theorem serialize_sha256_head {c : Ctx} (hc : c.alg = .sha256) (h : RegFile) :
    ∃ rest, serialize c h = toBe (h[0]).toNat 4 ++ rest := by
  have hl : h.toList = h[0] :: h.toList.drop 1 := by
    simpa using List.drop_eq_getElem_cons (l := h.toList) (i := 0) (by simp)
  refine ⟨(((h.toList.drop 1).take 7).flatMap (wordToBytes .sha256)).take 28, ?_⟩
  rw [serialize, hc, hl]
  simp [digestLength, hc, stateWords, wordToBytes, wordOrder, wordBytes, List.take_append]

/-- The first word of a buffer filled with bytes. -/
theorem bufferWord_fill_cons {n : Nat} (b0 b1 b2 b3 : Byte) (rest : List Byte) (hn : 4 ≤ n) :
    bufferWord (fill n (b0 :: b1 :: b2 :: b3 :: rest) : Buffer n) 0 = b3 ++ b2 ++ b1 ++ b0 := by
  obtain ⟨n, rfl⟩ := Nat.exists_eq_add_of_le' hn
  simp [bufferWord, ofNat_fromLe_four]

/-- Settles O56: SERIALIZE that ends with OK stored the serialization, whose first four bytes are H[0]'s from the
most significant one down; the host's word has the first byte least significant. -/
theorem sha256DigestWordReversed : Obligations.Sha256DigestWordReversed := by
  intro s t h hok hb
  refine hostAccess_read_eq hb (regAt_digest 0 (by decide)) ?_
  rw [readReg]
  obtain ⟨ho, rfl⟩ | ⟨_, rfl⟩ := serializeTemplate_cases (a := .sha256) h
  · obtain ⟨rest, hd⟩ := serialize_sha256_head ((openFor_iff s _).1 ho).2 s.h
    rw [toBe_four] at hd
    rw [storeDigest_digest, storeDigest_h, hd]
    exact bufferWord_fill_cons _ _ _ _ rest (by decide)
  · cases hok

end Sys2Proof.Machine
end

section
/-! PROOF. Decoding and encoding (R90 to R101): a word decodes to a command exactly when its fields are the command's
(`carries_of_decode`, `decode_of_carries`). -/

namespace Sys2Proof

open Machine

/-! ### The fields of a word -/

/-- Two words with the same four fields are the same word (R91). -/
theorem word_ext {c d : BitVec 32} (rsv : rsvField c = rsvField d) (nb : nbField c = nbField d)
    (alg : algField c = algField d) (op : opField c = opField d) : c = d := by
  simp only [rsvField, nbField, algField, opField, ← BitVec.toNat_inj, BitVec.extractLsb'_toNat,
    Nat.shiftRight_eq_div_pow] at *
  omega

/-- The fields ALG and NB are the bits 15:4, which R97 (iii) names at once. -/
theorem operandBits_ne_zero {c : BitVec 32} : c.extractLsb' 4 12 ≠ 0 ↔ algField c ≠ 0 ∨ nbField c ≠ 0 := by
  simp only [algField, nbField, ne_eq, ← BitVec.toNat_inj, BitVec.extractLsb'_toNat, Nat.shiftRight_eq_div_pow,
    BitVec.ofNat_eq_ofNat, BitVec.toNat_ofNat]
  omega

/-- The encoding as a sum, as R100 writes it. -/
theorem encodeWord_eq_ofNat (o : Op) (a : BitVec 4) {n : Nat} (h : n ≤ 255) :
    encodeWord o a n = BitVec.ofNat 32 (o.code.toNat + 16 * a.toNat + 256 * n) := by
  have hrsv := encodeWord_rsv o a h
  have hnb := encodeWord_nb o a h
  have halg := encodeWord_alg o a h
  have hop := encodeWord_op o a h
  simp only [rsvField, nbField, algField, opField, ← BitVec.toNat_inj, BitVec.extractLsb'_toNat,
    Nat.shiftRight_eq_div_pow, BitVec.ofNat_eq_ofNat, BitVec.toNat_ofNat] at *
  omega

/-! ### The fields of a command -/

theorem wellFormed_iff (i : Instr) : i.WellFormed ↔ i.fields.2.2 ≤ 255 := by
  cases i <;> simp [Instr.WellFormed, Instr.wellFormed, Instr.tailCount, Instr.fields]

/-- The operations with an algorithm (R94, "fields used"). -/
def Op.hasAlg : Op → Bool
  | .nop | .encodeDigest | .sreset => false
  | .init | .compress | .pad | .final | .serialize | .hash => true

/-- The operations with a byte count (R94, "fields used"). -/
def Op.hasCount : Op → Bool
  | .pad | .final => true
  | .nop | .init | .compress | .serialize | .encodeDigest | .hash | .sreset => false

/-- A command has 0 in the fields its operation does not use, and 0 is the code of MD4. -/
theorem fields_unused (i : Instr) :
    (i.fields.1.hasAlg = false → i.fields.2.1 = .md4) ∧ (i.fields.1.hasCount = false → i.fields.2.2 = 0) := by
  cases i <;> simp [Op.hasAlg, Op.hasCount, Instr.fields]

/-- The command of operation `o`, for the algorithm `a` and the count `n` where `o` uses them. -/
def commandOf : Op → Alg → Nat → Instr
  | .nop, _, _ => .nop
  | .encodeDigest, _, _ => .encodeDigest
  | .sreset, _, _ => .sreset
  | .init, a, _ => initOf a
  | .compress, a, _ => compressOf a
  | .serialize, a, _ => serializeOf a
  | .hash, a, _ => hashOf a
  | .pad, a, n => padOf a n
  | .final, a, n => finalOf a n

theorem commandOf_fields (i : Instr) : commandOf i.fields.1 i.fields.2.1 i.fields.2.2 = i := by
  cases i <;> rfl

theorem fields_commandOf {o : Op} {a : Alg} {n : Nat} (ha : o.hasAlg = false → a = .md4)
    (hn : o.hasCount = false → n = 0) : (commandOf o a n).fields = (o, a, n) := by
  cases o with
  | nop | encodeDigest | sreset => simp [commandOf, ha rfl, hn rfl]
  | init | compress | serialize | hash => simp [commandOf, hn rfl]
  | pad | final => simp [commandOf]

theorem algOfCode_eq_some {c : BitVec 4} {a : Alg} : algOfCode c = some a ↔ c = a.code :=
  ⟨algOfCode_some, fun h => h ▸ algOfCode_code a⟩

/-! ### The three shapes of a command word -/

section
variable {c : BitVec 32}

theorem decodePlain_eq_ok {i j : Instr} :
    decodePlain c j = .ok i ↔ algField c = 0 ∧ nbField c = 0 ∧ j = i := by
  unfold decodePlain
  split <;> simp <;> tauto

theorem decodePlain_rejects {i : Instr} :
    (∃ r, decodePlain c i = .error r) ↔ algField c ≠ 0 ∨ nbField c ≠ 0 := by
  unfold decodePlain
  split <;> simp <;> tauto

theorem decodeAlg_eq_ok {f : Alg → Instr} {i : Instr} :
    decodeAlg c f = .ok i ↔ ∃ a : Alg, algField c = a.code ∧ nbField c = 0 ∧ f a = i := by
  simp only [decodeAlg, ← algOfCode_eq_some]
  cases algOfCode (algField c) with
  | none => simp
  | some a => by_cases hn : nbField c = 0#8 <;> simp [hn]

theorem decodeAlg_rejects {f : Alg → Instr} :
    (∃ r, decodeAlg c f = .error r) ↔ 7 ≤ (algField c).toNat ∨ nbField c ≠ 0 := by
  rw [← algOfCode_none, decodeAlg]
  cases algOfCode (algField c) with
  | none => simp
  | some a => by_cases hn : nbField c = 0#8 <;> simp [hn]

theorem decodeCount_eq_ok {f : Alg → Nat → Instr} {i : Instr} :
    decodeCount c f = .ok i ↔ ∃ a : Alg, algField c = a.code ∧ f a (nbField c).toNat = i := by
  simp only [decodeCount, ← algOfCode_eq_some]
  cases algOfCode (algField c) <;> simp

theorem decodeCount_rejects {f : Alg → Nat → Instr} :
    (∃ r, decodeCount c f = .error r) ↔ 7 ≤ (algField c).toNat := by
  rw [← algOfCode_none, decodeCount]
  cases algOfCode (algField c) <;> simp

/-! ### The decoder -/

/-- What the decoder does with the word `c` of operation `o`, past the checks of RSV and OP (R98). -/
def decodeOp (c : BitVec 32) : Op → Except Illegal Instr
  | .nop => decodePlain c .nop
  | .encodeDigest => decodePlain c .encodeDigest
  | .sreset => decodePlain c .sreset
  | .init => decodeAlg c initOf
  | .compress => decodeAlg c compressOf
  | .serialize => decodeAlg c serializeOf
  | .hash => decodeAlg c hashOf
  | .pad => decodeCount c padOf
  | .final => decodeCount c finalOf

theorem decode_of_op {o : Op} (hr : rsvField c = 0) (ho : opField c = o.code) : decode c = decodeOp c o := by
  rw [decode, if_neg (not_not.2 hr), ho, opOfCode_code]
  cases o <;> rfl

/-- The decoder's first two checks (R97 (i), (ii)), and its choice by OP. -/
theorem decode_cases (c : BitVec 32) :
    (rsvField c ≠ 0 ∧ decode c = .error .reservedBits) ∨
    (opOfCode (opField c) = none ∧ decode c = .error .reservedOp) ∨
    ∃ o : Op, rsvField c = 0 ∧ opField c = o.code ∧ decode c = decodeOp c o := by
  by_cases hr : rsvField c = 0
  · cases ho : opOfCode (opField c) with
    | none => exact .inr (.inl ⟨rfl, by rw [decode, if_neg (not_not.2 hr), ho]⟩)
    | some o =>
      have hc := opOfCode_some ho
      exact .inr (.inr ⟨o, hr, hc, decode_of_op hr hc⟩)
  · exact .inl ⟨hr, if_pos hr⟩

/-- The word `c` has RSV = 0 and the fields of the command `i` (R91). -/
structure Carries (c : BitVec 32) (i : Instr) : Prop where
  rsv : rsvField c = 0
  op : opField c = i.fields.1.code
  alg : algField c = i.fields.2.1.code
  count : (nbField c).toNat = i.fields.2.2

theorem carries_of_decode {i : Instr} (h : decode c = .ok i) : Carries c i := by
  obtain ⟨_, hd⟩ | ⟨_, hd⟩ | ⟨o, hr, ho, hd⟩ := decode_cases c
  · simp [hd] at h
  · simp [hd] at h
  rw [hd] at h
  cases o with
  | nop | encodeDigest | sreset =>
    obtain ⟨ha, hn, rfl⟩ := decodePlain_eq_ok.1 h
    exact ⟨hr, ho, ha, by simp [hn]⟩
  | init | compress | serialize | hash =>
    obtain ⟨a, ha, hn, rfl⟩ := decodeAlg_eq_ok.1 h
    exact ⟨hr, by simpa using ho, by simpa using ha, by simp [hn]⟩
  | pad | final =>
    obtain ⟨a, ha, rfl⟩ := decodeCount_eq_ok.1 h
    exact ⟨hr, by simpa using ho, by simpa using ha, by simp⟩

theorem decodeOp_eq_commandOf {o : Op} {a : Alg} (ha : algField c = a.code) (hu : o.hasAlg = false → a = .md4)
    (hn : o.hasCount = false → nbField c = 0) : decodeOp c o = .ok (commandOf o a (nbField c).toNat) := by
  cases o with
  | nop | encodeDigest | sreset =>
    cases hu rfl
    exact decodePlain_eq_ok.2 ⟨ha, hn rfl, rfl⟩
  | init | compress | serialize | hash => exact decodeAlg_eq_ok.2 ⟨a, ha, hn rfl, rfl⟩
  | pad | final => exact decodeCount_eq_ok.2 ⟨a, ha, rfl⟩

theorem decode_of_carries {i : Instr} (h : Carries c i) : decode c = .ok i := by
  obtain ⟨hrsv, hop, halg, hnb⟩ := h
  obtain ⟨hu, hcount⟩ := fields_unused i
  rw [decode_of_op hrsv hop,
    decodeOp_eq_commandOf halg hu fun h => BitVec.eq_of_toNat_eq (hnb.trans (hcount h)), hnb, commandOf_fields]

end

/-! ### The two round trips (R98, R101) -/

theorem encode_carries {i : Instr} (h : i.WellFormed) : Carries (encode i) i := by
  have hn := (wellFormed_iff i).1 h
  refine ⟨encodeWord_rsv _ _ hn, encodeWord_op _ _ hn, encodeWord_alg _ _ hn, ?_⟩
  rw [encode, encodeWord_nb _ _ hn, BitVec.toNat_ofNat]
  omega

/-- Settles O1: an encoded command carries the command's fields. -/
theorem decodeAfterEncode : Obligations.DecodeAfterEncode := fun _ h => decode_of_carries (encode_carries h)

/-- Settles O2: the word and the encoding carry the same fields, and are the same word by `word_ext`. -/
theorem encodeAfterDecode : Obligations.EncodeAfterDecode := by
  intro c i h
  obtain ⟨hr, ho, ha, hn⟩ := carries_of_decode h
  have hi : i.WellFormed := (wellFormed_iff i).2 (by omega)
  obtain ⟨hr', ho', ha', hn'⟩ := encode_carries hi
  exact ⟨hi, word_ext (hr'.trans hr.symm) (BitVec.eq_of_toNat_eq (hn'.trans hn.symm)) (ha'.trans ha.symm)
    (ho'.trans ho.symm)⟩

/-! ### Illegal words (R97) -/

theorem decode_rejects_iff (c : BitVec 32) : (∃ r, decode c = .error r) ↔ illegalWord c := by
  obtain ⟨hr, hd⟩ | ⟨ho, hd⟩ | ⟨o, hr, ho, hd⟩ := decode_cases c
  · exact iff_of_true ⟨_, hd⟩ (.inl hr)
  · exact iff_of_true ⟨_, hd⟩ (.inr (.inl ((opOfCode_none _).1 ho)))
  rw [hd, illegalWord, operandBits_ne_zero, ← rsvField, ← opField, ← algField, ← nbField, ho, hr]
  cases o with
  | nop | encodeDigest | sreset => simp [decodeOp, decodePlain_rejects, Op.code]
  | init | compress | serialize | hash => simp [decodeOp, decodeAlg_rejects, Op.code]
  | pad | final => simp [decodeOp, decodeCount_rejects, Op.code]

/-- The engine completes a word that does not decode with ERR_ILLEGAL alone (R360, R404). -/
theorem engineTurn_illegal {s : State} (hb : s.busy = true) {r : Illegal} (hd : decode s.pend = .error r) :
    engineTurn s = .next (complete (raise .errIllegal s)) := by
  simp [engineTurn, engineStep, hb, hd]

/-- Settles O3: an illegal word does not decode, and the engine then takes the branch of `engineTurn_illegal`. -/
theorem illegalWordsRejected : Obligations.IllegalWordsRejected := by
  refine ⟨decode_rejects_iff, fun s hb hi => ?_⟩
  obtain ⟨r, hd⟩ := (decode_rejects_iff s.pend).2 hi
  exact engineTurn_illegal hb hd

/-! ### The opcode table (R99) -/

/-- The fields of a word under the mask that leaves NB free. -/
theorem and_countMask_fields (c : BitVec 32) :
    rsvField (c &&& countMask) = rsvField c ∧ nbField (c &&& countMask) = 0 ∧
    algField (c &&& countMask) = algField c ∧ opField (c &&& countMask) = opField c := by
  simp only [rsvField, nbField, algField, opField, BitVec.extractLsb'_and, countMask]
  exact ⟨BitVec.and_allOnes, BitVec.and_zero, BitVec.and_allOnes, BitVec.and_allOnes⟩

theorem eq_encodeWord_iff {c : BitVec 32} {o : Op} {a : BitVec 4} :
    c = encodeWord o a 0 ↔ rsvField c = 0 ∧ nbField c = 0 ∧ algField c = a ∧ opField c = o.code := by
  have h : 0 ≤ 255 := by decide
  constructor
  · rintro rfl
    exact ⟨encodeWord_rsv o a h, encodeWord_nb o a h, encodeWord_alg o a h, encodeWord_op o a h⟩
  · rintro ⟨hr, hn, ha, ho⟩
    exact word_ext (hr.trans (encodeWord_rsv o a h).symm) (hn.trans (encodeWord_nb o a h).symm)
      (ha.trans (encodeWord_alg o a h).symm) (ho.trans (encodeWord_op o a h).symm)

/-- The rows are what R99 and R100 say: the word of the row's fields with count 0, and the mask by the operation. -/
theorem opcodeTable_rows : ∀ r ∈ opcodeTable, r.pattern = encodeWord r.op r.alg.code 0 ∧
    r.mask = (if r.op.hasCount then countMask else fullMask) ∧ (r.op.hasAlg = false → r.alg = .md4) := by
  decide

/-- A word matches a row exactly when its fields are the row's, with NB free where there is a count. -/
theorem row_matches_iff {r : OpcodeRow} (hr : r ∈ opcodeTable) {c : BitVec 32} :
    c &&& r.mask = r.pattern ↔ rsvField c = 0 ∧ (r.op.hasCount = false → nbField c = 0) ∧
      algField c = r.alg.code ∧ opField c = r.op.code := by
  obtain ⟨hp, hm, _⟩ := opcodeTable_rows r hr
  rw [hp, hm, eq_encodeWord_iff]
  cases r.op.hasCount with
  | true =>
    obtain ⟨hrsv, hnb, halg, hop⟩ := and_countMask_fields c
    simp [hrsv, hnb, halg, hop]
  | false =>
    have hfull : c &&& fullMask = c := BitVec.and_allOnes
    simp [hfull]

theorem row_matches_iff_decode {r : OpcodeRow} (hr : r ∈ opcodeTable) (c : BitVec 32) :
    c &&& r.mask = r.pattern ↔ ∃ i, decode c = .ok i ∧ i.fields.1 = r.op ∧ i.fields.2.1 = r.alg := by
  rw [row_matches_iff hr]
  constructor
  · rintro ⟨hrsv, hn, ha, ho⟩
    obtain ⟨-, -, hplain⟩ := opcodeTable_rows r hr
    have hf := fields_commandOf hplain fun h => congrArg BitVec.toNat (hn h)
    exact ⟨_, (decode_of_op hrsv ho).trans (decodeOp_eq_commandOf ha hplain hn), by simp [hf]⟩
  · rintro ⟨i, hi, ho, ha⟩
    obtain ⟨hrsv, hop, halg, hn⟩ := carries_of_decode hi
    obtain ⟨-, hcount⟩ := fields_unused i
    exact ⟨hrsv, fun h => BitVec.eq_of_toNat_eq (hn.trans (hcount (ho ▸ h))), ha ▸ halg, ho ▸ hop⟩

/-- Every operation has a row for each algorithm, where it uses one. -/
theorem opcodeTable_complete {o : Op} {a : Alg} :
    (o.hasAlg = false → a = .md4) → ∃ r ∈ opcodeTable, r.op = o ∧ r.alg = a := by
  cases o <;> cases a <;> decide

/-- Two rows differ in a bit that both masks keep. -/
theorem opcodeTable_disjoint : opcodeTable.Pairwise fun r q => r.pattern &&& q.mask ≠ q.pattern &&& r.mask := by
  decide

/-- Settles O4: `row_matches_iff_decode` for each row; a word that decodes has a row by `opcodeTable_complete`. -/
theorem opcodeTableAgrees : Obligations.OpcodeTableAgrees := by
  refine ⟨rfl, fun r hr => ⟨?mask, row_matches_iff_decode hr⟩, ?disjoint, fun c => ⟨?rejected, ?unmatched⟩⟩
  case mask =>
    obtain ⟨-, hm, -⟩ := opcodeTable_rows r hr
    rw [hm]
    cases r.op <;> rfl
  case disjoint =>
    refine opcodeTable_disjoint.imp fun h c ⟨hr, hq⟩ => h ?_
    rw [← hr, ← hq, BitVec.and_assoc, BitVec.and_assoc, BitVec.and_comm (OpcodeRow.mask _)]
  case rejected =>
    rintro ⟨e, he⟩ r hr hm
    obtain ⟨i, hi, -⟩ := (row_matches_iff_decode hr c).1 hm
    simp [he] at hi
  case unmatched =>
    intro h
    cases hd : decode c with
    | error e => exact ⟨e, rfl⟩
    | ok i =>
      obtain ⟨r, hr, ho, ha⟩ := opcodeTable_complete (fields_unused i).1
      exact absurd ((row_matches_iff_decode hr c).2 ⟨i, hd, ho.symm, ha.symm⟩) (h r hr)

/-! ### The opcode map (R100) -/

/-- The word of a command is its codes and its count, added up in their places. -/
theorem decode_sum {i : Instr} {o : Op} {a : Alg} {n : Nat} (hi : i.fields = (o, a, n)) (hn : n ≤ 255) :
    decode (BitVec.ofNat 32 (o.code.toNat + 16 * a.code.toNat + 256 * n)) = .ok i := by
  have h := decodeAfterEncode i ((wellFormed_iff i).2 (by rw [hi]; exact hn))
  rwa [encode, hi, encodeWord_eq_ofNat o a.code hn] at h

/-- Settles O5: the words of PAD and FINAL by `decode_sum`, at each algorithm. -/
theorem opcodeMapWords : Obligations.OpcodeMapWords := by
  refine ⟨by decide, by decide, by decide, fun n => ?pad, fun n => ?final, by decide, by decide⟩
  case pad =>
    have word (a : Alg) := decode_sum (fields_padOf a n) (by omega)
    exact ⟨word .md4, word .md5, word .sha1, word .sha256, word .sha512, word .ripemd160, word .blake2b⟩
  case final =>
    have word (a : Alg) := decode_sum (fields_finalOf a n) (by omega)
    exact ⟨word .md4, word .md5, word .sha1, word .sha256, word .sha512, word .ripemd160, word .blake2b⟩

end Sys2Proof
end

section
/-! PROOF. The padding functions (R120 to R127): the zero-fill count, the parts of a padding, and BLAKE2b's zeros. -/

namespace Sys2Proof.Machine

theorem blockSize_le (a : Alg) : blockSize a ≤ 128 := by cases a <;> decide

/-! ### The zero-fill count (R122) -/

theorem zeroFill_lt (a : Alg) (n : Nat) : zeroFill a n < blockSize a := Nat.mod_lt _ (blockSize_pos a)

theorem zeroFill_completes (a : Alg) (n : Nat) : blockSize a ∣ n + 1 + zeroFill a n + lengthField a := by
  rw [Nat.dvd_iff_mod_eq_zero, Nat.add_right_comm, zeroFill, Nat.add_mod_mod, ← Nat.dvd_iff_mod_eq_zero]
  refine ⟨(n + 1 + lengthField a) / blockSize a + 1, ?_⟩
  have hdiv := Nat.div_add_mod (n + 1 + lengthField a) (blockSize a)
  have hmod := Nat.mod_lt (n + 1 + lengthField a) (blockSize_pos a)
  rw [Nat.mul_succ]
  omega

/-- Two counts that complete a block differ by a multiple of the block size, and the zero-fill count is below it. -/
theorem zeroFill_le {a : Alg} {n z : Nat} (h : blockSize a ∣ n + 1 + z + lengthField a) : zeroFill a n ≤ z := by
  by_contra hlt
  have hdvd := Nat.dvd_sub (zeroFill_completes a n) h
  have hle := Nat.le_of_dvd (by omega) hdvd
  have := zeroFill_lt a n
  omega

/-- Settles O29: the count completes a block, and no smaller one does by `zeroFill_le`. -/
theorem zeroFillIsLeast : Obligations.ZeroFillIsLeast := by
  refine ⟨fun a _ n _ => ⟨zeroFill_lt a n, Nat.mod_eq_zero_of_dvd (zeroFill_completes a n), fun z hz h => ?_⟩,
    by decide, by decide, by decide⟩
  exact Nat.not_le.2 hz (zeroFill_le (Nat.dvd_of_mod_eq_zero h))

/-! ### The padding of a tail (R121, R124) -/

/-- PADBUF has room for every padding. -/
theorem mdPad_length_le {a : Alg} (ha : a ∈ mdFamily) {tail : List Byte} (total : Nat)
    (hn : tail.length < blockSize a) : (mdPad a tail total).length ≤ 256 := by
  obtain ⟨k, hk, hl⟩ := mdPad_blockCount ha total hn
  exact hl ▸ Nat.mul_le_mul hk (blockSize_le a)

/-- Settles O30: the parts of the padding add up to its length, which is one block or two. -/
theorem paddingSize : Obligations.PaddingSize := fun a ha tail total hn =>
  ⟨mdPad_length a tail total, mdPad_blocks ha tail total hn, mdPad_length_le ha total hn⟩

theorem tail_isPrefix_mdPad (a : Alg) (tail : List Byte) (total : Nat) : tail <+: mdPad a tail total :=
  ⟨[0x80] ++ zeros (zeroFill a tail.length) ++ lengthBytes a total, by simp [mdPad]⟩

theorem mdPad_terminator (a : Alg) (tail : List Byte) (total : Nat) :
    (mdPad a tail total)[tail.length]? = some 0x80 := by
  simp [mdPad]

theorem mdPad_zeros {a : Alg} {tail : List Byte} {total j : Nat} (hlo : tail.length < j)
    (hhi : j < (mdPad a tail total).length - lengthField a) : (mdPad a tail total)[j]? = some 0 := by
  rw [mdPad_length] at hhi
  rw [mdPad, List.getElem?_append_left (by simp; omega), List.getElem?_append_right (by simp; omega), zeros,
    List.getElem?_replicate_of_lt (by simp; omega)]

/-- The last LF(a) bytes are the length field. -/
theorem mdPad_drop (a : Alg) (tail : List Byte) (total : Nat) :
    (mdPad a tail total).drop ((mdPad a tail total).length - lengthField a) = lengthBytes a total := by
  rw [mdPad, List.length_append, lengthBytes_length, Nat.add_sub_cancel, List.drop_left]

/-! ### The length field (R123) -/

theorem fromLe_lengthBytes {a : Alg} (h : wordOrder a = .le) (total : Nat) :
    fromLe (lengthBytes a total) = 8 * total % 2 ^ (8 * lengthField a) := by
  simp only [lengthBytes, h, fromLe_toLe, Nat.pow_mul, Nat.reducePow, Nat.mod_mod]

theorem fromBe_lengthBytes {a : Alg} (h : wordOrder a = .be) (total : Nat) :
    fromBe (lengthBytes a total) = 8 * total % 2 ^ (8 * lengthField a) := by
  simp only [lengthBytes, h, fromBe_toBe, Nat.pow_mul, Nat.reducePow, Nat.mod_mod]

/-- The little-endian rows of R123's table. -/
theorem littleEndian_rows : ∀ a ∈ [Alg.md4, .md5, .ripemd160], wordOrder a = .le ∧ lengthField a = 8 := by
  decide

/-- Its big-endian rows but SHA-512's, whose field is 16 bytes. -/
theorem bigEndian_rows : ∀ a ∈ [Alg.sha1, .sha256], wordOrder a = .be ∧ lengthField a = 8 := by
  decide

theorem lengthField_eq : ∀ a ∈ mdFamily, lengthField a = if a = .sha512 then 16 else 8 := by
  decide

/-- Settles O31: part by part, the length field read back in the byte order of its row of R123. -/
theorem paddingLayout : Obligations.PaddingLayout := by
  intro a ha tail total _ p field
  have hfield : field = lengthBytes a total := mdPad_drop a tail total
  refine ⟨(List.prefix_iff_eq_take.1 (tail_isPrefix_mdPad a tail total)).symm, mdPad_terminator a tail total,
    fun _ => mdPad_zeros, lengthField_eq a ha, fun h => ?little, fun h => ?big, ?sha512⟩
  case little =>
    obtain ⟨ho, hl⟩ := littleEndian_rows a h
    rw [hfield, fromLe_lengthBytes ho, hl]
  case big =>
    obtain ⟨ho, hl⟩ := bigEndian_rows a h
    rw [hfield, fromBe_lengthBytes ho, hl]
  case sha512 =>
    rintro rfl
    rw [hfield, fromBe_lengthBytes rfl]
    rfl

/-! ### Whole messages (R126) -/

theorem padMessage_eq (a : Alg) (m : List Byte) : padMessage a m =
    m.take (m.length / blockSize a * blockSize a) ++ mdPad a (messageTail a m) m.length := rfl

/-- The full blocks and the tail are the message. -/
theorem take_append_messageTail (a : Alg) (m : List Byte) :
    m.take (m.length / blockSize a * blockSize a) ++ messageTail a m = m :=
  List.take_append_drop _ m

theorem isPrefix_padMessage (a : Alg) (m : List Byte) : m <+: padMessage a m := by
  obtain ⟨rest, h⟩ := tail_isPrefix_mdPad a (messageTail a m) m.length
  exact ⟨rest, by rw [padMessage_eq, ← h, ← List.append_assoc, take_append_messageTail]⟩

theorem padMessage_length (a : Alg) (m : List Byte) : (padMessage a m).length =
    m.length / blockSize a * blockSize a + (mdPad a (messageTail a m) m.length).length := by
  rw [padMessage_eq, List.length_append, List.length_take_of_le (Nat.div_mul_le_self _ _)]

theorem blockSize_dvd_padMessage (a : Alg) (m : List Byte) : blockSize a ∣ (padMessage a m).length := by
  rw [padMessage_length, mdPad_length]
  exact (Nat.dvd_mul_left _ _).add (zeroFill_completes a _)

theorem le_padMessage_length (a : Alg) (m : List Byte) :
    m.length + 1 + lengthField a ≤ (padMessage a m).length := by
  have h := congrArg List.length (take_append_messageTail a m)
  rw [List.length_append, List.length_take_of_le (Nat.div_mul_le_self _ _)] at h
  rw [padMessage_length, mdPad_length]
  omega

/-- Settles O32: the tail's padding starts with the tail, and its zero fill completes a block after the full ones. -/
theorem wholeMessagePadding : Obligations.WholeMessagePadding := fun a _ m =>
  ⟨rfl, isPrefix_padMessage a m, Nat.mod_eq_zero_of_dvd (blockSize_dvd_padMessage a m), le_padMessage_length a m⟩

/-! ### BLAKE2b (R127) -/

/-- Settles O33: past the tail every byte is one of the zeros. -/
theorem blakePaddingIsZeros : Obligations.BlakePaddingIsZeros := by
  intro tail hn
  refine ⟨blakePad_length tail hn, List.take_left, fun j hlo hhi => ?_⟩
  rw [blakePad, List.getElem?_append_right hlo, zeros, List.getElem?_replicate_of_lt (by omega)]

end Sys2Proof.Machine
end

section
/-! PROOF. The PAD commands (R128, R136), and the one word that spells a command with a byte count (R100). -/

namespace Sys2Proof

/-- The words that decode to the command `i` are its one word of R100. -/
theorem decode_eq_ok_iff {i : Instr} {o : Op} {a : Alg} {n : Nat} (hi : i.fields = (o, a, n)) (hn : n ≤ 255)
    (c : BitVec 32) :
    decode c = .ok i ↔ c = BitVec.ofNat 32 (o.code.toNat + 16 * a.code.toNat + 256 * n) := by
  constructor
  · intro h
    obtain ⟨-, he⟩ := encodeAfterDecode c i h
    rw [← he, encode, hi, encodeWord_eq_ofNat o a.code hn]
  · rintro rfl
    exact decode_sum hi hn

end Sys2Proof

namespace Sys2Proof.Machine

theorem tailOperand_length_eq (s : State) {n : Nat} (hn : n ≤ 128) : (tailOperand s n).length = n := by
  rw [tailOperand_length, Nat.min_eq_left hn]

/-- Without an ACTIVE context of its algorithm PAD is ERR_SEQ, whatever the byte count (R128). -/
theorem padMd_errSeq {a : Alg} {s : State} (n : Nat) (h : activeFor s a = false) :
    padMd a n s = .next (raise .errSeq s) := by
  simp [padMd, h]

/-- In an ACTIVE context the byte count alone decides (R128). -/
theorem padMd_active {a : Alg} {s : State} (ha : a ∈ mdFamily) (h : activeFor s a = true) (n : Nat) :
    padMd a n s =
      if blockSize a ≤ n then .next (raise .errLen s)
      else .next { storePadding a (mdPad a (tailOperand s n) (advanced s n).toNat) s with code := .ok } := by
  simp [padMd, h, tailTooLong_md ha]

theorem padBlake_errSeq {s : State} (n : Nat) (h : activeFor s .blake2b = false) :
    padBlake n s = .next (raise .errSeq s) := by
  simp [padBlake, h]

/-- In an ACTIVE context the byte count alone decides, and 0 is as good as any other (R136). -/
theorem padBlake_active {s : State} (h : activeFor s .blake2b = true) (n : Nat) :
    padBlake n s =
      if 128 < n then .next (raise .errLen s)
      else .next { storePadding .blake2b (blakePad (tailOperand s n)) s with code := .ok } := by
  simp [padBlake, h, tailTooLong]

/-- Settles O18: PADCNT is the block count of `padCount_mdPad`. -/
theorem padMdWritesPadding : Obligations.PadMdWritesPadding := by
  intro s a ha n
  obtain ⟨e, he, rfl⟩ := mdFamily_engine ha
  rw [exec_padOf n s e he]
  refine ⟨fun hp hc hn => ?ok, fun hp hc hn => ?errLen, fun h => padMd_errSeq n (activeFor_false h)⟩
  case ok =>
    have htail := tailOperand_length_eq s (hn.le.trans (blockSize_le e.alg))
    rw [padMd_active ha (activeFor_true hp hc), if_neg (Nat.not_le.2 hn), storePadding,
      padCount_mdPad ha _ _ (htail.symm ▸ hn), htail]
    rfl
  case errLen => exact (padMd_active ha (activeFor_true hp hc) n).trans (if_pos hn)

/-- BLAKE2b's padding is one block (R127). -/
theorem padCount_blakePad {tail : List Byte} (h : tail.length ≤ 128) : padCount .blake2b (blakePad tail) = 1 := by
  rw [padCount, blakePad_length tail h]
  rfl

/-- Settles O19: the words by `decode_eq_ok_iff`; filling PADBUF adds the zeros that `blakePad` adds. -/
theorem padBlakeWritesPadding : Obligations.PadBlakeWritesPadding := by
  refine ⟨fun c n => decode_eq_ok_iff (fields_padOf .blake2b n) (by omega) c, fun s n =>
    ⟨fun hp hc hn => ?ok, fun hp hc hn => ?errLen, fun h => padBlake_errSeq n (activeFor_false h)⟩⟩
  case ok =>
    have hbuf : (fill 256 (blakePad (tailOperand s n)) : Buffer 256) = fill 256 (tailOperand s n) :=
      fill_append_zeros _ _
    refine (padBlake_active (activeFor_true hp hc) n).trans ?_
    rw [if_neg (Nat.not_lt.2 hn), storePadding, hbuf, padCount_blakePad (by simp)]
    rfl
  case errLen => exact (padBlake_active (activeFor_true hp hc) n).trans (if_pos hn)

end Sys2Proof.Machine
end

section
/-! PROOF. The message schedules of SHA-1, SHA-256 and SHA-512 (R203, R208, R213). The model keeps a schedule
newest word first; here it is read oldest first, as the list that grows by one word at its end. -/

namespace Sys2Proof.Machine

/-- `n` more words after `x`, oldest first: each is `next` of the words before it, newest first. -/
def extendBy {α : Type} (next : List α → α) (x : List α) : Nat → List α
  | 0 => x
  | n + 1 => extendBy next x n ++ [next (extendBy next x n).reverse]

/-- The word that `sha1Expand` adds. -/
def sha1Next (ws : List Word32) : Word32 :=
  (ws.getD 2 0 ^^^ ws.getD 7 0 ^^^ ws.getD 13 0 ^^^ ws.getD 15 0).rotateLeft 1

/-- The word that `sha2Expand` adds. -/
def sha2Next {w : Nat} (sigma0 sigma1 : BitVec w → BitVec w) (ws : List (BitVec w)) : BitVec w :=
  sigma1 (ws.getD 1 0) + ws.getD 6 0 + sigma0 (ws.getD 14 0) + ws.getD 15 0

section
variable {α : Type} (next : List α → α) (x : List α)

@[simp] theorem extendBy_length (n : Nat) : (extendBy next x n).length = x.length + n := by
  induction n with
  | zero => rfl
  | succ n ih => rw [extendBy, List.length_append, ih, List.length_singleton, Nat.add_assoc]

/-- The first of the new words can be added to `x` beforehand. -/
theorem extendBy_succ_front (n : Nat) :
    extendBy next x (n + 1) = extendBy next (x ++ [next x.reverse]) n := by
  induction n with
  | zero => rfl
  | succ n ih => rw [extendBy, ih, extendBy]

/-- The words of `x` stay where they are. -/
theorem extendBy_getD_of_lt {t : Nat} (ht : t < x.length) (n : Nat) (d : α) :
    (extendBy next x n).getD t d = x.getD t d := by
  induction n with
  | zero => rfl
  | succ n ih => rw [extendBy, List.getD_append _ _ _ _ (by simp; omega), ih]

/-- Every later word is `next` of the words before it. -/
theorem extendBy_getD_of_ge {n t : Nat} (hx : x.length ≤ t) (ht : t < x.length + n) (d : α) :
    (extendBy next x n).getD t d = next ((extendBy next x n).take t).reverse := by
  induction n with
  | zero => omega
  | succ n ih =>
    rw [extendBy, List.take_append_of_le_length (by simp; omega)]
    obtain hlt | rfl : t < x.length + n ∨ t = x.length + n := by omega
    · rw [List.getD_append _ _ _ _ (by simpa using hlt), ih hlt]
    · rw [List.getD_append_right _ _ _ _ (by simp), List.take_of_length_le (by simp)]
      simp

end

/-- Item `i` of the first `t` words, newest first, is word `t - (i + 1)`. -/
theorem getD_reverse_take {α : Type} {l : List α} {i t : Nat} (hi : i < t) (ht : t ≤ l.length) (d : α) :
    (l.take t).reverse.getD i d = l.getD (t - (i + 1)) d := by
  have hlen : (l.take t).length = t := List.length_take_of_le ht
  rw [List.getD_eq_getElem?_getD, List.getElem?_reverse (by omega), hlen,
    List.getElem?_take_of_lt (by omega), List.getD_eq_getElem?_getD, Nat.sub_sub, Nat.add_comm 1 i]

theorem sha1Expand_reverse (n : Nat) (x : List Word32) :
    (sha1Expand n x.reverse).reverse = extendBy sha1Next x n := by
  induction n generalizing x with
  | zero => exact x.reverse_reverse
  | succ n ih =>
    rw [extendBy_succ_front, ← ih, List.reverse_concat]
    rfl

theorem sha2Expand_reverse {w : Nat} (sigma0 sigma1 : BitVec w → BitVec w) (n : Nat) (x : List (BitVec w)) :
    (sha2Expand sigma0 sigma1 n x.reverse).reverse = extendBy (sha2Next sigma0 sigma1) x n := by
  induction n generalizing x with
  | zero => exact x.reverse_reverse
  | succ n ih =>
    rw [extendBy_succ_front, ← ih, List.reverse_concat]
    rfl

/-- SHA-1's recurrence, on the words before word `t` (R203). -/
theorem sha1Next_reverse_take {l : List Word32} {t : Nat} (h16 : 16 ≤ t) (ht : t ≤ l.length) :
    sha1Next (l.take t).reverse =
      (l.getD (t - 3) 0 ^^^ l.getD (t - 8) 0 ^^^ l.getD (t - 14) 0 ^^^ l.getD (t - 16) 0).rotateLeft 1 := by
  have item {i : Nat} (hi : i < 16) := getD_reverse_take (hi.trans_le h16) ht (0 : Word32)
  rw [sha1Next, item (by decide), item (by decide), item (by decide), item (by decide)]

/-- SHA-2's recurrence, on the words before word `t` (R208, R213). -/
theorem sha2Next_reverse_take {w : Nat} (sigma0 sigma1 : BitVec w → BitVec w) {l : List (BitVec w)} {t : Nat}
    (h16 : 16 ≤ t) (ht : t ≤ l.length) :
    sha2Next sigma0 sigma1 (l.take t).reverse =
      sigma1 (l.getD (t - 2) 0) + l.getD (t - 7) 0 + sigma0 (l.getD (t - 15) 0) + l.getD (t - 16) 0 := by
  have item {i : Nat} (hi : i < 16) := getD_reverse_take (hi.trans_le h16) ht (0 : BitVec w)
  rw [sha2Next, item (by decide), item (by decide), item (by decide), item (by decide)]

/-- A schedule of `16 + n` words: its length, the block words, and `next` of the words before each later word. -/
theorem extendBy_block {w : Nat} (next : List (BitVec w) → BitVec w) {x : List (BitVec w)}
    (hx : x.length = 16) (n : Nat) :
    (extendBy next x n).length = 16 + n ∧
    (∀ t, t < 16 → (extendBy next x n).getD t 0 = x.getD t 0) ∧
    ∀ t, 16 ≤ t → t < 16 + n →
      (extendBy next x n).getD t 0 = next ((extendBy next x n).take t).reverse := by
  rw [← hx]
  exact ⟨extendBy_length next x n, fun t ht => extendBy_getD_of_lt next x ht n 0,
    fun t h16 ht => extendBy_getD_of_ge next x h16 ht 0⟩

/-- Both SHA-2 schedules: `n` is 48 for SHA-256 and 64 for SHA-512. -/
theorem sha2Expand_block {w : Nat} (sigma0 sigma1 : BitVec w → BitVec w) {x : List (BitVec w)}
    (hx : x.length = 16) (n : Nat) :
    let W := (sha2Expand sigma0 sigma1 n x.reverse).reverse
    W.length = 16 + n ∧ (∀ t, t < 16 → W.getD t 0 = x.getD t 0) ∧
    ∀ t, 16 ≤ t → t < 16 + n →
      W.getD t 0 =
        sigma1 (W.getD (t - 2) 0) + W.getD (t - 7) 0 + sigma0 (W.getD (t - 15) 0) + W.getD (t - 16) 0 := by
  rw [sha2Expand_reverse]
  obtain ⟨hlen, hblock, hnext⟩ := extendBy_block (sha2Next sigma0 sigma1) hx n
  exact ⟨hlen, hblock, fun t h16 ht =>
    (hnext t h16 ht).trans (sha2Next_reverse_take sigma0 sigma1 h16 (hlen ▸ ht.le))⟩

/-- Settles O37: each schedule grows one word at a time from the block, so word `t` is the recurrence on the
words before it. -/
theorem shaMessageSchedules : Obligations.ShaMessageSchedules := by
  refine ⟨fun x hx => ?sha1, fun x hx => ?sha256, fun x hx => ?sha512⟩
  case sha1 =>
    rw [sha1Schedule, sha1Expand_reverse]
    obtain ⟨hlen, hblock, hnext⟩ := extendBy_block sha1Next hx 64
    exact ⟨hlen, hblock, fun t h16 ht =>
      (hnext t h16 ht).trans (sha1Next_reverse_take h16 (hlen ▸ ht.le))⟩
  case sha256 => exact sha2Expand_block smallSigma0_256 smallSigma1_256 hx 48
  case sha512 => exact sha2Expand_block smallSigma0_512 smallSigma1_512 hx 64

end Sys2Proof.Machine
end

section
/-! PROOF. The commands of BLAKE2b (R300 to R304): INIT's parameter word, COMPRESS's block, and FINAL's last block and
digest. -/

namespace Sys2Proof.Machine

/-! ### INIT.BLAKE2B (R300) -/

/-- The fields of the parameter word do not overlap: it is their sum (R291). -/
theorem blakeParameter_eq_ofNat (dl kl : Byte) :
    (0x01010000 ||| (kl.setWidth 64 <<< 8) ||| dl.setWidth 64 : Word64) =
      BitVec.ofNat 64 (0x01010000 + 256 * kl.toNat + dl.toNat) := by
  have low : kl.toNat <<< 8 + dl.toNat = kl.toNat <<< 8 ||| dl.toNat :=
    Nat.shiftLeft_add_eq_or_of_lt dl.isLt _
  have high : 0x0101 <<< 16 + (kl.toNat <<< 8 + dl.toNat) =
      0x0101 <<< 16 ||| (kl.toNat <<< 8 + dl.toNat) :=
    Nat.shiftLeft_add_eq_or_of_lt (by rw [Nat.shiftLeft_eq]; omega) _
  have hd : (dl.setWidth 64).toNat = dl.toNat := by rw [BitVec.toNat_setWidth]; omega
  have hk : (kl.setWidth 64 <<< 8).toNat = kl.toNat <<< 8 := by
    rw [BitVec.toNat_shiftLeft, BitVec.toNat_setWidth, Nat.shiftLeft_eq, Nat.shiftLeft_eq]
    omega
  apply BitVec.eq_of_toNat_eq
  calc (0x01010000 ||| (kl.setWidth 64 <<< 8) ||| dl.setWidth 64 : Word64).toNat
    _ = 0x0101 <<< 16 ||| (kl.toNat <<< 8 ||| dl.toNat) := by
      rw [BitVec.toNat_or, BitVec.toNat_or, hd, hk, Nat.or_assoc]
      rfl
    _ = 0x0101 <<< 16 + (kl.toNat <<< 8 + dl.toNat) := by rw [high, low]
    _ = (BitVec.ofNat 64 (0x01010000 + 256 * kl.toNat + dl.toNat)).toNat := by
      rw [BitVec.toNat_ofNat, Nat.shiftLeft_eq, Nat.shiftLeft_eq]
      omega

/-- `b2_init` writes IV with the parameter word in word 0 (R291). -/
theorem blakeInit_eq (dl kl : Byte) :
    blakeInit dl kl =
      #v[0x6a09e667f3bcc908 ^^^ BitVec.ofNat 64 (0x01010000 + 256 * kl.toNat + dl.toNat),
        0xbb67ae8584caa73b, 0x3c6ef372fe94f82b, 0xa54ff53a5f1d36f1, 0x510e527fade682d1,
        0x9b05688c2b3e6c1f, 0x1f83d9abfb41bd6b, 0x5be0cd19137e2179] := by
  rw [blakeInit, blakeParameter_eq_ofNat]
  rfl

/-- With the checks passed INIT opens a context (R300). -/
theorem initBlake_legal {s : State} (h : configFault s = none) :
    initBlake s =
      .next (openContext ⟨.blake2b, s.cfg.dlen, s.cfg.klen⟩ (blakeInit s.cfg.dlen s.cfg.klen) s) := by
  rw [initBlake, h]

/-- A failed check leaves IDLE with DIGEST and HEX cleared (R300, R405). -/
theorem initBlake_fault {s : State} {c : Code} (h : configFault s = some c) :
    initBlake s =
      .next
        { s with
          code := c
          phase := .idle
          digest := Vector.replicate 64 0
          diglen := 0
          hex := Vector.replicate 128 0
          hexlen := 0 } := by
  rw [initBlake, h, ← fill_nil, ← fill_nil]
  rfl

/-- Settles O15: one clause per case of `configFault_cases`; the premises of the other two fail there. -/
theorem initBlakeChecksThenOpens : Obligations.InitBlakeChecksThenOpens := by
  refine ⟨decode_eq_ok_iff fields_initBlake2b (by omega), fun s => ?_⟩
  obtain ⟨hf, hd⟩ | ⟨hf, hd, hk⟩ | ⟨hf, hd, hk⟩ := configFault_cases s
  · exact ⟨fun h => by omega, fun _ => initBlake_fault hf, fun h => by omega⟩
  · exact ⟨fun _ h => by omega, fun h => by omega, fun _ _ => initBlake_fault hf⟩
  · refine ⟨fun _ _ => (initBlake_legal hf).trans ?_, fun h => by omega, fun _ h => by omega⟩
    rw [blakeInit_eq, openContext]
    simp only [fill_nil]

/-! ### COMPRESS.BLAKE2B (R302) -/

/-- BLAKE2b's block is the whole of BLK (R24, R93). -/
theorem blockOperand_blake (s : State) : blockOperand s .blake2b = s.blk.toList :=
  List.take_of_length_le (by simp [blockSize])

theorem compressBlake_errSeq {s : State} (h : activeFor s .blake2b = false) :
    compressBlake s = .next (raise .errSeq s) := by
  simp [compressBlake, h]

theorem compressBlake_active {s : State} (h : activeFor s .blake2b = true) :
    compressBlake s =
      .next
        { s with
          h := (blakeUpdate (s.h, s.t) s.blk.toList).1
          t := (blakeUpdate (s.h, s.t) s.blk.toList).2
          code := .ok } := by
  simp [compressBlake, h, blockOperand_blake]

/-- Settles O17: `blakeUpdate` counts the block, then compresses it. -/
theorem compressBlakeUpdatesState : Obligations.CompressBlakeUpdatesState :=
  ⟨decode_eq_ok_iff fields_compressBlake2b (by omega), fun _ =>
    ⟨fun hp hc => compressBlake_active (activeFor_true hp hc), fun h => compressBlake_errSeq (activeFor_false h)⟩⟩

/-! ### FINAL.BLAKE2B (R303, R304) -/

/-- The n = 0 guard of R304. -/
theorem emptyTailRefused_iff (n : Nat) (s : State) :
    emptyTailRefused n s = true ↔ n = 0 ∧ (s.t ≠ 0 ∨ s.ctx.klen ≠ 0) := by
  simp [emptyTailRefused]

theorem finalBlake_errSeq {s : State} (n : Nat) (h : activeFor s .blake2b = false) :
    finalBlake n s = .next (raise .errSeq s) := by
  simp [finalBlake, h]

/-- In an ACTIVE context the byte count and the guard of R304 decide. -/
theorem finalBlake_active {s : State} (h : activeFor s .blake2b = true) (n : Nat) :
    finalBlake n s =
      if 128 < n ∨ (n = 0 ∧ (s.t ≠ 0 ∨ s.ctx.klen ≠ 0)) then .next (raise .errLen s)
      else
        .next (closeContext s.ctx (blakeFinish (s.h, s.t) (tailOperand s n)).1
          (blakeFinish (s.h, s.t) (tailOperand s n)).2 (blakePad (tailOperand s n)) s) := by
  simp [finalBlake, h, tailTooLong, emptyTailRefused_iff]

/-- The last block: the tail of BLK and zeros to 128 bytes (R127, R303). -/
theorem blakePad_tailOperand (s : State) {n : Nat} (hn : n ≤ 128) :
    blakePad (tailOperand s n) = s.blk.toList.take n ++ List.replicate (128 - n) 0 := by
  rw [blakePad, tailOperand_length_eq s hn]
  rfl

/-- T counts the real bytes of the last block, which is compressed with the final flag (R296, R303). -/
theorem blakeFinish_tailOperand (s : State) {n : Nat} (hn : n ≤ 128) :
    blakeFinish (s.h, s.t) (tailOperand s n) =
      (blakeCompress s.h (wordsLe 64 8 (blakePad (tailOperand s n))) (s.t + BitVec.ofNat 128 n) true,
        s.t + BitVec.ofNat 128 n) := by
  rw [blakeFinish, tailOperand_length_eq s hn]

/-- BLAKE2b's digest: the state words little-endian, cut to CTX.DLEN bytes (R299, R331). -/
theorem serialize_blake {c : Ctx} (hc : c.alg = .blake2b) (h : RegFile) :
    serialize c h = (h.toList.flatMap fun w => toLe w.toNat 8).take c.dlen.toNat := by
  obtain ⟨a, d, k⟩ := c
  subst hc
  have words : h.toList.take (stateWords .blake2b) = h.toList :=
    List.take_of_length_le (by simp [stateWords])
  rw [serialize, words]
  rfl

/-- DIGLEN of a legal BLAKE2b context is its CTX.DLEN (R303). -/
theorem digestFlag_serialize_blake {c : Ctx} (hc : ctxLegal c) (ha : c.alg = .blake2b) (h : RegFile) :
    digestFlag (serialize c h) = c.dlen.setWidth 7 := by
  have len : digestLength c = c.dlen.toNat := by simp [digestLength, ha]
  rw [digestFlag, (serialize_length_legal hc h).1, len, BitVec.ofNat_toNat]

/-- Settles O21: `finalBlake_active` decides between the two answers; what closes the context is rewritten to the
bytes of BLK. -/
theorem finalBlakeClosesContext : Obligations.FinalBlakeClosesContext := by
  refine ⟨fun c n => decode_eq_ok_iff (fields_finalBlake2b n) (by omega) c, fun s n =>
    ⟨fun hl hp hc hn h0 => ?ok, fun hp hc hn => ?errLen, fun h => finalBlake_errSeq n (activeFor_false h)⟩⟩
  case ok =>
    have passed : ¬(128 < n ∨ (n = 0 ∧ (s.t ≠ 0 ∨ s.ctx.klen ≠ 0))) := by
      rintro (h | ⟨hz, ht | hk⟩)
      · exact Nat.not_lt.2 hn h
      · exact ht (h0 hz).1
      · exact hk (h0 hz).2
    refine (finalBlake_active (activeFor_true hp hc) n).trans ?_
    rw [if_neg passed, blakeFinish_tailOperand s hn, closeContext, storeDigest, storePadding, hc,
      padCount_blakePad (by simp), digestFlag_serialize_blake hl hc, serialize_blake hc,
      blakePad_tailOperand s hn, fill_nil]
  case errLen => exact (finalBlake_active (activeFor_true hp hc) n).trans (if_pos hn)

end Sys2Proof.Machine
end

section
/-! PROOF. The digest encoder (R330 to R333, R341): the bytes of a serialization, the characters of a rendering, and
the commands that write them. -/

namespace Sys2Proof.Machine

/-- When `f` answers `k` entries everywhere, entry `k * i + m` of a `flatMap` is entry `m` of the `i`-th answer. -/
theorem flatMap_getElem?_of_length_eq {α β : Type} {f : α → List β} {k : Nat} (hf : ∀ x, (f x).length = k)
    (l : List α) (i : Nat) {m : Nat} (hm : m < k) :
    (l.flatMap f)[k * i + m]? = l[i]?.bind fun x => (f x)[m]? := by
  induction l generalizing i with
  | nil => simp
  | cons x l ih =>
    rw [List.flatMap_cons]
    cases i with
    | zero => rw [Nat.mul_zero, Nat.zero_add, List.getElem?_append_left (by rwa [hf])]; rfl
    | succ i =>
      rw [List.getElem?_append_right (by rw [hf, Nat.mul_succ]; omega), hf,
        show k * (i + 1) + m - k = k * i + m by rw [Nat.mul_succ]; omega, ih]
      rfl

/-! ### The bytes of a serialization (R331) -/

/-- Byte `m` of `to_le(v, n)` is digit `m` of `v` to the base 256 (R12). -/
theorem toLe_getElem? (v : Nat) {n m : Nat} (h : m < n) : (toLe v n)[m]? = some (BitVec.ofNat 8 (v / 256 ^ m)) := by
  induction m generalizing v n with
  | zero => obtain ⟨n, rfl⟩ := Nat.exists_eq_add_of_lt h; simp [toLe]
  | succ m ih =>
    obtain ⟨n, rfl⟩ := Nat.exists_eq_add_of_le' (Nat.succ_le_of_lt (Nat.zero_lt_of_lt h))
    simp [toLe, ih (v / 256) (Nat.lt_of_succ_lt_succ h), Nat.div_div_eq_div_mul, Nat.pow_succ']

theorem toLe_word_getElem? (w : Word64) {n m : Nat} (h : m < n) :
    (toLe w.toNat n)[m]? = some (w.extractLsb' (8 * m) 8) := by
  rw [toLe_getElem? _ h, BitVec.extractLsb', Nat.shiftRight_eq_div_pow, Nat.pow_mul]

theorem toBe_word_getElem? (w : Word64) {n m : Nat} (h : m < n) :
    (toBe w.toNat n)[m]? = some (w.extractLsb' (8 * (n - 1 - m)) 8) := by
  rw [toBe, List.getElem?_reverse (by simpa using h), toLe_length, toLe_word_getElem? w (by omega)]

theorem wordBytes_pos (a : Alg) : 0 < wordBytes a := by cases a <;> decide

/-- Byte `j` of a serialization is byte `j mod WB` of the state word `j / WB` (R331). -/
theorem serialize_getElem? {c : Ctx} {h : RegFile} {j : Nat} (hj : j < (serialize c h).length) {k : Fin 8}
    (hk : k.val = j / wordBytes c.alg) :
    (serialize c h)[j]? = (wordToBytes c.alg h[k])[j % wordBytes c.alg]? := by
  rw [serialize_length, Nat.lt_min] at hj
  have hword : k.val < stateWords c.alg := hk ▸ Nat.div_lt_of_lt_mul (Nat.mul_comm .. ▸ hj.2)
  have position : j = wordBytes c.alg * k.val + j % wordBytes c.alg := hk ▸ (Nat.div_add_mod ..).symm
  rw [serialize, List.getElem?_take_of_lt hj.1]
  conv_lhs => rw [position]
  rw [flatMap_getElem?_of_length_eq (wordToBytes_length c.alg) _ _ (Nat.mod_lt _ (wordBytes_pos _)),
    List.getElem?_take_of_lt hword]
  simp

/-- Settles O34: the length by `serialize_length`, row by row of R93; a byte by `serialize_getElem?` and the word
byte order of the algorithm. -/
theorem serializedBytes : Obligations.SerializedBytes := by
  intro c h d bytes
  refine ⟨?length, fun j hj => ⟨?bound, fun k hk => ⟨fun ha => ?le, fun ha => ?be⟩⟩⟩
  case length =>
    refine (serialize_length c h).trans ?_
    obtain ⟨a, dlen, klen⟩ := c
    cases a <;> rfl
  case bound => exact (Nat.lt_min.1 (serialize_length c h ▸ hj)).2
  case le =>
    have order : ∀ a ∈ [Alg.md4, .md5, .ripemd160, .blake2b], wordOrder a = .le := by decide
    rw [serialize_getElem? hj hk, wordToBytes, order _ ha]
    exact toLe_word_getElem? _ (Nat.mod_lt _ (wordBytes_pos _))
  case be =>
    have order : ∀ a ∈ [Alg.sha1, .sha256, .sha512], wordOrder a = .be := by decide
    rw [serialize_getElem? hj hk, wordToBytes, order _ ha]
    exact toBe_word_getElem? _ (Nat.mod_lt _ (wordBytes_pos _))

/-! ### The characters of a rendering (R332) -/

/-- The sixteen characters `0123456789abcdef`. -/
def hexAlphabet : List Byte :=
  [0x30, 0x31, 0x32, 0x33, 0x34, 0x35, 0x36, 0x37, 0x38, 0x39, 0x61, 0x62, 0x63, 0x64, 0x65, 0x66]

theorem hexAlphabet_getElem? : ∀ v < 16, hexAlphabet[v]? = some (hexChar v) := by decide

theorem highNibble_toNat (b : Byte) : (b >>> 4).toNat = b.toNat / 16 := by
  rw [BitVec.toNat_ushiftRight, Nat.shiftRight_eq_div_pow]

theorem lowNibble_toNat (b : Byte) : (b &&& 15).toNat = b.toNat % 16 :=
  (BitVec.toNat_and ..).trans (Nat.and_two_pow_sub_one_eq_mod b.toNat 4)

/-- The two characters of byte `j` stand at `2 * j` and `2 * j + 1`. -/
theorem hexText_getElem? {d : List Byte} {j : Nat} {b : Byte} (hb : d[j]? = some b) {m : Nat} (hm : m < 2) :
    (hexText d)[2 * j + m]? = [hexChar (b.toNat / 16), hexChar (b.toNat % 16)][m]? := by
  rw [hexText, flatMap_getElem?_of_length_eq (k := 2) (fun _ => rfl) d j hm, hb]
  rfl

/-- Settles O35: the characters by `hexText_getElem?`, each one looked up in the alphabet. -/
theorem hexCharacters : Obligations.HexCharacters := by
  refine fun d => ⟨hexText_length d, fun j b hb => ⟨?high, ?low⟩⟩
  case high =>
    rw [highNibble_toNat]
    exact (hexText_getElem? hb (m := 0) (by decide)).trans (hexAlphabet_getElem? _ (by omega)).symm
  case low =>
    rw [lowNibble_toNat]
    exact (hexText_getElem? hb (m := 1) (by decide)).trans (hexAlphabet_getElem? _ (by omega)).symm

/-! ### SERIALIZE (R333) -/

/-- SERIALIZE in an open context of its algorithm. -/
theorem serializeTemplate_open {a : Alg} {s : State} (h : openFor s a = true) :
    serializeTemplate a s = .next { storeDigest (serialize s.ctx s.h) s with code := .ok } := by
  simp [serializeTemplate, h]

theorem serializeTemplate_errSeq {a : Alg} {s : State} (h : openFor s a = false) :
    serializeTemplate a s = .next (raise .errSeq s) := by
  simp [serializeTemplate, h]

/-- A context is open in the phases ACTIVE and DONE (R380). -/
theorem openFor_iff_active_or_done (s : State) (a : Alg) :
    openFor s a = true ↔ (s.phase = .active ∨ s.phase = .done) ∧ s.ctx.alg = a := by
  rw [openFor_iff]
  cases s.phase <;> simp

/-- Settles O22: `openFor` decides between the two answers. -/
theorem serializeWritesDigest : Obligations.SerializeWritesDigest := by
  intro s a d
  rw [exec_serializeOf]
  refine ⟨fun hp ha => ?ok, fun h => serializeTemplate_errSeq ?closed⟩
  case ok =>
    rw [serializeTemplate_open ((openFor_iff_active_or_done s a).2 ⟨hp, ha⟩), storeDigest, fill_nil]
    rfl
  case closed => rwa [← Bool.not_eq_true, openFor_iff_active_or_done]

/-- Settles O41: in phase DONE the invariant says that DIGEST and DIGLEN hold the serialization already. -/
theorem doneSerializeKeepsDigest : Obligations.DoneSerializeKeepsDigest := by
  intro s hs hdone
  obtain ⟨hlen, hdigest⟩ := hs.phase.2 hdone
  have hflag : digestFlag (serialize s.ctx s.h) = s.diglen :=
    BitVec.eq_of_toNat_eq ((digestFlag_serialize hs.ctx s.h).trans hlen.symm)
  rw [exec_serializeOf, serializeTemplate_open ((openFor_iff_active_or_done s _).2 ⟨.inr hdone, rfl⟩),
    storeDigest, hflag, ← hdigest, fill_nil]

/-! ### ENCODE (R341) -/

theorem execEncodeDigest_digest {s : State} (h : s.diglen ≠ 0) :
    execEncodeDigest s = .next { storeHex (hexText (prefixOf s.digest s.diglen.toNat)) s with code := .ok } :=
  if_neg h

theorem execEncodeDigest_errSeq {s : State} (h : s.diglen = 0) :
    execEncodeDigest s = .next (raise .errSeq s) :=
  if_pos h

/-- HEXLEN of a rendered digest (R341). -/
theorem hexFlag_hexText_prefixOf {n : Nat} (b : Buffer 64) (hn : n ≤ 64) :
    hexFlag (hexText (prefixOf b n)) = BitVec.ofNat 8 (2 * n) := by
  rw [hexFlag, hexText_length, prefixOf_length, Nat.min_eq_left hn]

/-- Settles O23: the word by `decode_eq_ok_iff`; DIGLEN decides between the two answers. -/
theorem encodeRendersDigest : Obligations.EncodeRendersDigest := by
  refine ⟨decode_eq_ok_iff fields_encodeDigest (by omega), fun s =>
    ⟨fun hd hle => ?digest, execEncodeDigest_errSeq⟩⟩
  case digest =>
    refine (execEncodeDigest_digest hd).trans ?_
    rw [storeHex, hexFlag_hexText_prefixOf _ hle]
    rfl

/-- Settles O42: neither command writes what it reads. -/
theorem encoderIdempotent : Obligations.EncoderIdempotent := by
  refine ⟨fun a s t h => ?serialize, fun s t h => ?encode⟩
  case serialize =>
    rw [exec_serializeOf] at h ⊢
    obtain ⟨ho, rfl⟩ | ⟨ho, rfl⟩ := serializeTemplate_cases h
    · exact serializeTemplate_open ho
    · exact serializeTemplate_errSeq ho
  case encode =>
    obtain ⟨hd, rfl⟩ | ⟨hd, rfl⟩ := execEncodeDigest_cases h
    · exact execEncodeDigest_digest hd
    · exact execEncodeDigest_errSeq hd

end Sys2Proof.Machine
end

section
/-! PROOF. The engine's turn at the end of a schedule and in it (R360), and the commands with no algorithm, NOP and
SRESET (R362, R363). -/

namespace Sys2Proof.Machine

/-! ### The engine's turn (R360) -/

theorem step_unscheduled {s : State} (h : s.schedule = []) : step s = engineTurn s := by
  rw [step, transition, h]

theorem step_engine {s : State} {rest : List Event} (h : s.schedule = .engine :: rest) :
    step s = engineTurn { s with schedule := rest } := by
  rw [step, transition, h]
  rfl

theorem engineTurn_idle {s : State} (h : s.busy = false) : engineTurn s = .next s := by
  simp [engineTurn, h]

/-- The engine completes a word that decodes with the next state of its command. -/
theorem engineTurn_decoded {s : State} {i : Instr} (hb : s.busy = true) (hd : decode s.pend = .ok i) :
    ∃ t, exec i s = .next t ∧ engineTurn s = .next (complete t) := by
  obtain ⟨t, ht⟩ := exec_next i s
  exact ⟨t, ht, by simp [engineTurn, engineStep, hb, hd, ht]⟩

/-- Settles O6: either way the step is the engine's turn, on the state with the turn taken off the schedule. -/
theorem stepRunsDecodedCommand : Obligations.StepRunsDecodedCommand := by
  intro s i hb hd
  refine ⟨fun hs => ?unscheduled, fun rest hs => ?scheduled⟩
  case unscheduled =>
    rw [step_unscheduled hs]
    exact engineTurn_decoded hb hd
  case scheduled =>
    rw [step_engine hs]
    exact engineTurn_decoded (s := { s with schedule := rest }) hb hd

/-- Settles O7: the step is the engine's turn, which is not enabled. -/
theorem idleEngineKeepsState : Obligations.IdleEngineKeepsState := fun _ hb =>
  ⟨fun hs => (step_unscheduled hs).trans (engineTurn_idle hb),
    fun _ hs => (step_engine hs).trans (engineTurn_idle hb)⟩

/-! ### NOP and SRESET -/

/-- OP says which operation a word decodes to. -/
theorem fields_op_of_decode {c : BitVec 32} {i : Instr} {o : Op} (h : decode c = .ok i) (ho : opField c = o.code) :
    i.fields.1 = o := by
  have hop : opOfCode i.fields.1.code = opOfCode o.code := by rw [← (carries_of_decode h).op, ho]
  simpa using hop

/-- An operation without an algorithm and a byte count has one command, and a word of the operation that does not decode
to it is illegal (R97 (iii)). -/
theorem decode_rejects_of_plain {c : BitVec 32} {o : Op} (ho : opField c = o.code) (ha : o.hasAlg = false)
    (hn : o.hasCount = false) (hne : decode c ≠ .ok (commandOf o .md4 0)) : ∃ r, decode c = .error r := by
  cases hd : decode c with
  | error r => exact ⟨r, rfl⟩
  | ok i =>
    obtain rfl := fields_op_of_decode hd ho
    obtain ⟨halg, hcount⟩ := fields_unused i
    have hi := commandOf_fields i
    rw [halg ha, hcount hn] at hi
    exact absurd (hd.trans (congrArg Except.ok hi.symm)) hne

/-- Settles O12: NOP's arm is the update of CODE, and NOP has one word. -/
theorem nopWritesCode : Obligations.NopWritesCode := by
  have word := decode_eq_ok_iff fields_nop (by omega)
  exact ⟨fun _ => rfl, (word 0).2 rfl, fun c ho hne =>
    decode_rejects_of_plain (o := .nop) ho rfl rfl fun h => hne ((word c).1 h)⟩

/-- Settles O13: `execSreset` takes every register and buffer from the reset state, where they are 0. -/
theorem sresetClearsRegisters : Obligations.SresetClearsRegisters := by
  have word := decode_eq_ok_iff fields_sreset (by omega)
  exact ⟨⟨(word 15).2 rfl, fun c ho hne =>
    decode_rejects_of_plain (o := .sreset) ho rfl rfl fun h => hne ((word c).1 h)⟩, fun _ => rfl⟩

end Sys2Proof.Machine
end

section
/-! PROOF. The commands of the MD family (R364 to R371) and HASH.BLAKE2B (R372): what each template answers under
each of its checks. -/

namespace Sys2Proof.Machine

/-! ### INIT (R364) -/

/-- Settles O14: `initMd` opens a context with the initial state of its engine, a table of constants. -/
theorem initMdOpensContext : Obligations.InitMdOpensContext := by
  intro s opened
  have init (e : MdEngine) : initMd e s = .next (opened e.alg e.iv) := by
    rw [initMd, openContext]
    simp only [fill_nil]
    rfl
  exact ⟨init md4Engine, init md5Engine, init sha1Engine, init sha256Engine, init sha512Engine, init ripemd160Engine⟩

/-! ### COMPRESS (R365) -/

theorem compressMd_active {e : MdEngine} {s : State} (h : activeFor s e.alg = true) :
    compressMd e s =
      .next
        { s with
          h := e.compress s.h (blockOperand s e.alg)
          t := advanced s (blockSize e.alg)
          code := .ok } := by
  simp [compressMd, h]

theorem compressMd_errSeq {e : MdEngine} {s : State} (h : activeFor s e.alg = false) :
    compressMd e s = .next (raise .errSeq s) := by
  simp [compressMd, h]

/-- Settles O16: each engine's compression, written out, is applied to the block operand. -/
theorem compressMdUpdatesState : Obligations.CompressMdUpdatesState := by
  intro s block word quad quint oct after ready
  have active (e : MdEngine) (h : ready e.alg) := compressMd_active (activeFor_true h.1 h.2)
  refine ⟨active md4Engine, active md5Engine, active sha1Engine, active sha256Engine, active sha512Engine,
    active ripemd160Engine, fun a ha h => ?_⟩
  obtain ⟨e, he, rfl⟩ := mdFamily_engine ha
  rw [exec_compressOf s e he]
  exact compressMd_errSeq (activeFor_false h)

/-! ### FINAL (R366) -/

theorem finalMd_errSeq {e : MdEngine} {s : State} (n : Nat) (h : activeFor s e.alg = false) :
    finalMd e n s = .next (raise .errSeq s) := by
  simp [finalMd, h]

/-- In an ACTIVE context the byte count alone decides. -/
theorem finalMd_active {e : MdEngine} (he : e ∈ mdEngines) {s : State} (h : activeFor s e.alg = true) (n : Nat) :
    finalMd e n s =
      if blockSize e.alg ≤ n then .next (raise .errLen s)
      else
        .next (closeContext s.ctx (absorbAll e s.h (mdPad e.alg (tailOperand s n) (advanced s n).toNat))
          (advanced s n) (mdPad e.alg (tailOperand s n) (advanced s n).toNat) s) := by
  simp [finalMd, h, tailTooLong_md (mdFamily_alg e he)]

theorem absorbAll_one_block {e : MdEngine} (h : RegFile) {p : List Byte} (hp : p.length = blockSize e.alg) :
    absorbAll e h p = e.compress h p := by
  rw [absorbAll, hp, Nat.div_self (blockSize_pos _), absorb, absorb, List.take_of_length_le hp.le]

theorem absorbAll_two_blocks {e : MdEngine} (h : RegFile) {p : List Byte} (hp : p.length = 2 * blockSize e.alg) :
    absorbAll e h p = e.compress (e.compress h (p.take (blockSize e.alg))) (p.drop (blockSize e.alg)) := by
  have hlast : (p.drop (blockSize e.alg)).length ≤ blockSize e.alg := by rw [List.length_drop]; omega
  rw [absorbAll, hp, Nat.mul_div_cancel _ (blockSize_pos _), absorb, absorb, absorb, List.take_of_length_le hlast]

/-- The padding of a tail is compressed as one block or as two (R124). -/
theorem absorbAll_mdPad {e : MdEngine} (he : e ∈ mdEngines) (h : RegFile) {tail : List Byte} (total : Nat)
    (hn : tail.length < blockSize e.alg) :
    absorbAll e h (mdPad e.alg tail total) =
      if tail.length + 1 + lengthField e.alg ≤ blockSize e.alg then e.compress h (mdPad e.alg tail total)
      else e.compress (e.compress h ((mdPad e.alg tail total).take (blockSize e.alg)))
        ((mdPad e.alg tail total).drop (blockSize e.alg)) := by
  have hlen := mdPad_blocks (mdFamily_alg e he) tail total hn
  split_ifs at hlen ⊢
  · exact absorbAll_one_block h hlen
  · exact absorbAll_two_blocks h hlen

/-- DIGLEN of a legal context's serialization (R331). -/
theorem digestFlag_serialize_eq {c : Ctx} (hc : ctxLegal c) (h : RegFile) :
    digestFlag (serialize c h) = BitVec.ofNat 7 (digestLength c) := by
  rw [digestFlag, (serialize_length_legal hc h).1]

/-- HEXLEN of its rendering (R332). -/
theorem hexFlag_hexText_serialize {c : Ctx} (hc : ctxLegal c) (h : RegFile) :
    hexFlag (hexText (serialize c h)) = BitVec.ofNat 8 (2 * digestLength c) := by
  rw [hexFlag, hexText_length, (serialize_length_legal hc h).1]

/-- Settles O20: `finalMd_active` decides between the two answers; the padding of the n bytes is one block or two for
the compression and for PADCNT alike. -/
theorem finalMdClosesContext : Obligations.FinalMdClosesContext := by
  intro s e he n p h
  rw [exec_finalOf n s e he]
  refine ⟨fun hp hc hn => ?ok, fun hp hc hn => ?errLen, fun h => finalMd_errSeq n (activeFor_false h)⟩
  case ok =>
    have htail := tailOperand_length_eq s (hn.le.trans (blockSize_le e.alg))
    have hlt := htail.symm ▸ hn
    have hcompress := absorbAll_mdPad he s.h (advanced s n).toNat hlt
    have hcount := padCount_mdPad (mdFamily_alg e he) _ (advanced s n).toNat hlt
    rw [htail] at hcompress hcount
    rw [finalMd_active he (activeFor_true hp hc), if_neg (Nat.not_le.2 hn), hcompress, closeContext, storeDigest,
      storePadding, hc, hcount, serialize_alg (hc ▸ mdEngine_not_blake e he) 0 0, hc,
      digestFlag_serialize_eq (ctxLegal_md he), fill_nil]
    rfl
  case errLen => exact (finalMd_active he (activeFor_true hp hc) n).trans (if_pos hn)

end Sys2Proof.Machine
end

section
/-! PROOF. The HASH commands (R370 to R372): what each answers under each of its checks, and that nothing of the
context before it matters. -/

namespace Sys2Proof.Machine

/-- What HASH leaves once its checks have passed: the context closed as FINAL closes it, and the digest rendered. -/
def hashed (c : Ctx) (h : RegFile) (t : Word128) (p : List Byte) (s : State) : State :=
  storeHex (hexText (serialize c h)) (closeContext c h t p s)

theorem message_eq_map (s : State) : message s = (List.range s.mlen.toNat).map (msgByte s) := by
  simp [message, memRead]

theorem messageTooLong_of_lt {s : State} (h : s.msgcap.toNat < s.mlen.toNat) : messageTooLong s = true :=
  (messageTooLong_iff s).2 h

theorem messageTooLong_of_le {s : State} (h : s.mlen.toNat ≤ s.msgcap.toNat) : messageTooLong s = false := by
  rw [← Bool.not_eq_true, messageTooLong_iff, Nat.not_lt]
  exact h

/-! ### The MD family (R371) -/

theorem hashMd_tooLong {e : MdEngine} {s : State} (h : messageTooLong s = true) :
    hashMd e s = .next (raise .errMlen s) := by
  simp [hashMd, h]

/-- A message that fits is compressed with its padding from the initial state (R126). -/
theorem hashMd_fits {e : MdEngine} (he : e ∈ mdEngines) {s : State} (h : messageTooLong s = false) :
    hashMd e s =
      .next (hashed ⟨e.alg, 0, 0⟩ (absorbAll e e.iv (padMessage e.alg (message s))) (s.mlen.setWidth 128)
        (mdPad e.alg (messageTail e.alg (message s)) (message s).length) s) := by
  rw [absorbAll_padMessage e he]
  simp [hashMd, h, hashed]

/-- Settles O24: the message is the bytes `MSG[0..MLEN)`, and MLEN decides between the two answers. -/
theorem hashMdHashesMessage : Obligations.HashMdHashesMessage := by
  intro s e he m q p h d
  rw [exec_hashOf s e he]
  refine ⟨fun hle => ?ok, fun hlt => hashMd_tooLong (messageTooLong_of_lt hlt)⟩
  case ok =>
    rw [hashMd_fits he (messageTooLong_of_le hle), message_eq_map, hashed, closeContext, storeDigest, storePadding,
      storeHex, digestFlag_serialize_eq (ctxLegal_md he), hexFlag_hexText_serialize (ctxLegal_md he),
      ← BitVec.ofNat_toNat]
    rfl

/-! ### BLAKE2b (R372) -/

/-- A configuration inside its bounds passes both checks (R361). -/
theorem configFault_legal {s : State} (hlo : 1 ≤ s.cfg.dlen.toNat) (hhi : s.cfg.dlen.toNat ≤ 64)
    (hk : s.cfg.klen.toNat ≤ 64) : configFault s = none := by
  obtain ⟨_, h⟩ | ⟨_, _, h⟩ | ⟨h, _⟩ := configFault_cases s
  · omega
  · omega
  · exact h

theorem hashBlake_fault {s : State} {c : Code} (h : configFault s = some c) :
    hashBlake s = .next (configError c s) := by
  rw [hashBlake, h]

theorem hashBlake_tooLong {s : State} (h : configFault s = none) (hm : messageTooLong s = true) :
    hashBlake s = .next (raise .errMlen s) := by
  simp [hashBlake, h, hm]

/-- The state words and the counter after the last block of `data`, the first being blocks that are not the last. -/
def blakeHash (cfg : Cfg) (data : List Byte) : RegFile × Word128 :=
  blakeFinish (blakeAbsorb (blakeLeading data) (blakeInit cfg.dlen cfg.klen, 0) data)
    (data.drop (128 * blakeLeading data))

theorem hashBlake_fits {s : State} (h : configFault s = none) (hm : messageTooLong s = false) :
    hashBlake s =
      .next (hashed ⟨.blake2b, s.cfg.dlen, s.cfg.klen⟩ (blakeHash s.cfg (blakeData s)).1
        (blakeHash s.cfg (blakeData s)).2
        (blakePad ((blakeData s).drop (128 * blakeLeading (blakeData s)))) s) := by
  simp [hashBlake, h, hm, hashed, blakeHash]

/-- The leading blocks lie inside the data. -/
theorem blakeLeading_le (data : List Byte) : 128 * blakeLeading data ≤ data.length := by
  rw [blakeLeading]
  omega

/-- T ends as the number of bytes (R372). -/
theorem blakeHash_counter (cfg : Cfg) (data : List Byte) :
    (blakeHash cfg data).2 = BitVec.ofNat 128 data.length := by
  have hz : (0 : Word128) + BitVec.ofNat 128 (128 * blakeLeading data) = BitVec.ofNat 128 (128 * blakeLeading data) :=
    BitVec.zero_add _
  rw [blakeHash, blakeFinish, blakeAbsorb_counter, hz, ← BitVec.ofNat_add, List.length_drop,
    Nat.add_sub_cancel' (blakeLeading_le data)]

theorem blakeData_eq (s : State) :
    blakeData s = (if s.cfg.klen.toNat = 0 then [] else
      s.key.toList.take s.cfg.klen.toNat ++ List.replicate (128 - s.cfg.klen.toNat) 0) ++ message s := by
  have hz : s.cfg.klen = 0 ↔ s.cfg.klen.toNat = 0 := by simp [← BitVec.toNat_inj]
  simp only [blakeData, hz]
  split <;> rfl

/-- The last block: zeros up to the end of block dd (R372). -/
theorem blakePad_last (data : List Byte) :
    blakePad (data.drop (128 * blakeLeading data)) = data.drop (128 * blakeLeading data) ++
      List.replicate (128 * max 1 ((data.length + 127) / 128) - data.length) 0 := by
  have hle := blakeLeading_le data
  have hzeros : 128 - (data.length - 128 * blakeLeading data) =
      128 * max 1 ((data.length + 127) / 128) - data.length := by
    rw [blakeLeading] at hle ⊢
    omega
  rw [blakePad, List.length_drop, hzeros, zeros]

theorem configError_eq (c : Code) (s : State) :
    configError c s =
      { s with
        code := c
        phase := .idle
        digest := Vector.replicate 64 0
        diglen := 0
        hex := Vector.replicate 128 0
        hexlen := 0 } := by
  rw [configError, fill_nil, fill_nil]
  rfl

/-- Settles O25: one case for each outcome of `configFault_cases`, where MLEN decides the rest; the premises of the
clauses of the other cases fail there. -/
theorem hashBlakeHashesMessage : Obligations.HashBlakeHashesMessage := by
  intro s dl kl m data dd p h d failed
  have hdata : blakeData s = data := by rw [blakeData_eq, message_eq_map]
  have fault {c : Code} (hf : configFault s = some c) : exec .hashBlake2b s = .next (failed c) :=
    (hashBlake_fault hf).trans (by rw [configError_eq])
  obtain ⟨hf, hd⟩ | ⟨hf, hd, hk⟩ | ⟨hf, hd, hk⟩ := configFault_cases s
  · exact ⟨fun _ => by omega, fun _ => fault hf, fun _ => by omega, fun _ => by omega⟩
  · exact ⟨fun _ _ => by omega, fun _ => by omega, fun _ _ => fault hf, fun _ _ => by omega⟩
  · refine ⟨fun _ _ hle => ?fits, fun _ => by omega, fun _ _ => by omega,
      fun _ _ hlt => hashBlake_tooLong hf (messageTooLong_of_lt hlt)⟩
    have hc := ctxLegal_blake hf
    refine (hashBlake_fits hf (messageTooLong_of_le hle)).trans ?_
    rw [hashed, closeContext, storeDigest, storePadding, storeHex, digestFlag_serialize_eq hc,
      hexFlag_hexText_serialize hc, padCount_blakePad (blakeTail_length _), serialize_blake rfl, blakeHash_counter,
      blakePad_last, hdata]
    rfl

/-! ### Nothing of the old context (R370) -/

/-- Two states with the same bytes of message memory up to MLEN hold the same message. -/
theorem message_congr {s s' : State} (hm : s'.mlen = s.mlen)
    (hb : ∀ x, x < s.mlen.toNat → msgByte s' x = msgByte s x) : message s' = message s := by
  rw [message_eq_map, message_eq_map, hm]
  exact List.map_congr_left fun x hx => hb x (List.mem_range.1 hx)

/-- Two answers of HASH: both are next states, with the same code and, for OK, the same results. -/
def SameHash (r r' : Result) : Prop :=
  ∃ t t', r = .next t ∧ r' = .next t' ∧ t'.code = t.code ∧
    (t.code = .ok → sameOutcome t t' ∧ t'.hex = t.hex ∧ t'.hexlen = t.hexlen)

/-- Errors with the same code are the same answer. -/
theorem sameHash_error {t t' : State} (h : t'.code = t.code) (hne : t.code ≠ .ok) :
    SameHash (.next t) (.next t') :=
  ⟨t, t', rfl, rfl, h, fun hok => absurd hok hne⟩

theorem sameHash_raise {c : Code} (hc : c ≠ .ok) (s s' : State) : SameHash (.next (raise c s)) (.next (raise c s')) :=
  sameHash_error rfl hc

theorem sameHash_configError {s : State} {c : Code} (h : configFault s = some c) (s' : State) :
    SameHash (.next (configError c s)) (.next (configError c s')) :=
  sameHash_error rfl fun hok => by
    rw [configError_code] at hok
    obtain rfl | rfl := configFault_code h <;> cases hok

/-- What `hashed` writes does not depend on the state it writes to. -/
theorem sameHash_hashed (c : Ctx) (h : RegFile) (t : Word128) (p : List Byte) (s s' : State) :
    SameHash (.next (hashed c h t p s)) (.next (hashed c h t p s')) :=
  ⟨_, _, rfl, rfl, rfl, fun _ => ⟨⟨rfl, rfl, rfl, rfl, rfl, rfl, rfl, rfl, rfl⟩, rfl, rfl⟩⟩

/-- Settles O45: the checks and what is written read the message and the configuration alone, which are the same. -/
theorem hashIgnoresOldContext : Obligations.HashIgnoresOldContext := by
  intro a s s' hm hcap hb hblake
  change SameHash _ _
  have hmsg := message_congr hm hb
  have hlong : messageTooLong s' = messageTooLong s := by rw [messageTooLong, messageTooLong, hm, hcap]
  obtain rfl | ⟨e, he, rfl⟩ := alg_engine a
  · obtain ⟨hcfg, hkey⟩ := hblake rfl
    have hfault : configFault s' = configFault s := by rw [configFault, configFault, hcfg]
    have hdata : blakeData s' = blakeData s := by rw [blakeData, blakeData, hcfg, hkey, hmsg]
    change SameHash (hashBlake s) (hashBlake s')
    cases hf : configFault s with
    | some c =>
      rw [hashBlake_fault hf, hashBlake_fault (hfault.trans hf)]
      exact sameHash_configError hf s'
    | none =>
      cases hl : messageTooLong s with
      | true =>
        rw [hashBlake_tooLong hf hl, hashBlake_tooLong (hfault.trans hf) (hlong.trans hl)]
        exact sameHash_raise (by decide) s s'
      | false =>
        rw [hashBlake_fits hf hl, hashBlake_fits (hfault.trans hf) (hlong.trans hl), hdata, hcfg]
        exact sameHash_hashed _ _ _ _ s s'
  · rw [exec_hashOf s e he, exec_hashOf s' e he]
    cases hl : messageTooLong s with
    | true =>
      rw [hashMd_tooLong hl, hashMd_tooLong (hlong.trans hl)]
      exact sameHash_raise (by decide) s s'
    | false =>
      rw [hashMd_fits he hl, hashMd_fits he (hlong.trans hl), hmsg, hm]
      exact sameHash_hashed _ _ _ _ s s'

end Sys2Proof.Machine
end

section
/-! PROOF. The block interface equals the one-shot interface (R367, R368): a block program keeps an ACTIVE context whose
state words and counter are those HASH has reached (`Running`), and FINAL then writes what HASH writes. -/

namespace Sys2Proof.Machine

/-! ### Running a program -/

theorem runProgram_cons {bytes : List Byte} {i : Instr} {p : BlockProgram} {s t : State}
    (h : exec i (loadBlk bytes s) = .next t) : runProgram ((bytes, i) :: p) s = runProgram p t := by
  rw [runProgram, h]

theorem runProgram_append {p : BlockProgram} (q : BlockProgram) {s t : State} (h : runProgram p s = .next t) :
    runProgram (p ++ q) s = runProgram q t := by
  induction p generalizing s with
  | nil => cases h; rfl
  | cons c p ih =>
    obtain ⟨bytes, i⟩ := c
    obtain ⟨u, hu⟩ := exec_next i (loadBlk bytes s)
    rw [runProgram_cons hu] at h
    rw [List.cons_append, runProgram_cons hu, ih h]

/-- The bytes the host has loaded are what a command reads (R24). -/
theorem prefixOf_loadBlk {bytes : List Byte} (s : State) (h : bytes.length ≤ 128) :
    prefixOf (loadBlk bytes s).blk bytes.length = bytes := by
  rw [loadBlk_blk, prefixOf, fill_toList, List.take_take, Nat.min_eq_left h, List.append_assoc, List.take_left]

theorem blockOperand_loadBlk {a : Alg} {block : List Byte} (s : State) (h : block.length = blockSize a) :
    blockOperand (loadBlk block s) a = block := by
  rw [blockOperand, ← h]
  exact prefixOf_loadBlk s (h ▸ blockSize_le a)

theorem tailOperand_loadBlk {tail : List Byte} (s : State) (h : tail.length ≤ 128) :
    tailOperand (loadBlk tail s) tail.length = tail :=
  prefixOf_loadBlk s h

/-! ### The simulation -/

/-- The state words and the counter are `ht`, in an ACTIVE context `c`. -/
structure Running (c : Ctx) (ht : RegFile × Word128) (s : State) : Prop where
  phase : s.phase = .active
  ctx : s.ctx = c
  h : s.h = ht.1
  t : s.t = ht.2

theorem running_openContext (c : Ctx) (h : RegFile) (s : State) : Running c (h, 0) (openContext c h s) :=
  ⟨rfl, rfl, rfl, rfl⟩

theorem Running.activeFor {c : Ctx} {ht : RegFile × Word128} {s : State} (hs : Running c ht s) :
    activeFor s c.alg = true :=
  activeFor_true hs.phase (congrArg Ctx.alg hs.ctx)

/-- `update` of the state words and the counter by each of the first `k` blocks of `bs` bytes. -/
def updateBlocks (update : RegFile × Word128 → List Byte → RegFile × Word128) (bs : Nat) :
    Nat → RegFile × Word128 → List Byte → RegFile × Word128
  | 0, ht, _ => ht
  | k + 1, ht, m => updateBlocks update bs k (update ht (m.take bs)) (m.drop bs)

/-- COMPRESS of the context `c` does to the state words and the counter what `update` does. -/
def CompressIs (c : Ctx) (update : RegFile × Word128 → List Byte → RegFile × Word128) : Prop :=
  ∀ ht block s, Running c ht s → block.length = blockSize c.alg →
    ∃ t, exec (compressOf c.alg) (loadBlk block s) = .next t ∧ Running c (update ht block) t

/-- The command `i` on the bytes closes the context `c`, running with `ht`, with state words `h`, counter `t` and
padding `p`. -/
def Closes (bytes : List Byte) (i : Instr) (c : Ctx) (ht : RegFile × Word128) (h : RegFile) (t : Word128)
    (p : List Byte) : Prop :=
  ∀ s, Running c ht s → exec i (loadBlk bytes s) = .next (closeContext c h t p (loadBlk bytes s))

section
variable {c : Ctx} {update : RegFile × Word128 → List Byte → RegFile × Word128}
  {k : Nat} {m : List Byte} {s : State}

/-- COMPRESS on each of the first `k` blocks, one by one. -/
theorem runProgram_compressBlocks (hu : CompressIs c update) {ht : RegFile × Word128} (hs : Running c ht s)
    (hm : k * blockSize c.alg ≤ m.length) :
    ∃ t, runProgram (compressBlocks c.alg k m) s = .next t ∧
      Running c (updateBlocks update (blockSize c.alg) k ht m) t := by
  induction k generalizing ht m s with
  | zero => exact ⟨s, rfl, hs⟩
  | succ k ih =>
    rw [Nat.succ_mul] at hm
    obtain ⟨t, hexec, hrun⟩ := hu ht (m.take (blockSize c.alg)) s hs (List.length_take_of_le (by omega))
    rw [compressBlocks, runProgram_cons hexec]
    exact ih hrun (by rw [List.length_drop]; omega)

/-- A whole program: INIT, COMPRESS on each of the first `k` blocks, and the last command. -/
theorem runProgram_closes (hu : CompressIs c update) {iv h : RegFile} {bytes p : List Byte} {i : Instr} {t : Word128}
    (hinit : exec (initOf c.alg) (loadBlk [] s) = .next (openContext c iv (loadBlk [] s)))
    (hm : k * blockSize c.alg ≤ m.length)
    (hlast : Closes bytes i c (updateBlocks update (blockSize c.alg) k (iv, 0) m) h t p) :
    ∃ x, runProgram (([], initOf c.alg) :: compressBlocks c.alg k m ++ [(bytes, i)]) s =
      .next (closeContext c h t p x) := by
  obtain ⟨u, hrun, hrunning⟩ := runProgram_compressBlocks hu (running_openContext c iv (loadBlk [] s)) hm
  refine ⟨loadBlk bytes u, ?_⟩
  rw [List.cons_append, runProgram_cons hinit, runProgram_append _ hrun, runProgram_cons (hlast u hrunning),
    runProgram]

end

/-! ### A closed context and a hashed one -/

theorem digestLength_pos {c : Ctx} (hc : ctxLegal c) : 0 < digestLength c := by
  obtain ⟨a, d, k⟩ := c
  cases a <;> simp [ctxLegal, digestLength] at hc ⊢
  omega

/-- ENCODE after FINAL renders the digest as HASH does (R341). -/
theorem exec_encodeDigest_closeContext {c : Ctx} (hc : ctxLegal c) (h : RegFile) (t : Word128) (p : List Byte)
    (s : State) : exec .encodeDigest (closeContext c h t p s) = .next (hashed c h t p s) := by
  have hlen : (closeContext c h t p s).diglen ≠ 0 := fun h0 => by
    have hl := digestFlag_serialize hc h
    rw [← closeContext_diglen c h t p s, h0] at hl
    exact (digestLength_pos hc).ne hl
  refine (execEncodeDigest_digest hlen).trans ?_
  rw [prefixOf_closeContext s hc]
  rfl

/-- A program that closes the context which the command `i` leaves hashed gives the results of `i` but for HEX, and
with ENCODE all of them. -/
theorem results_of_closes_of_hashed {c : Ctx} (hc : ctxLegal c) {h : RegFile} {t : Word128} {p : List Byte}
    {s s' : State} {i : Instr} {program : BlockProgram}
    (hrun : ∃ x, runProgram program s' = .next (closeContext c h t p x))
    (hhash : exec i s = .next (hashed c h t p s)) :
    ∃ w u v, runProgram program s' = .next w ∧ exec i s = .next u ∧
      exec .encodeDigest w = .next v ∧ sameOutcome w u ∧ sameOutcome v u ∧ v.hex = u.hex ∧
      v.hexlen = u.hexlen ∧ w.hex = Vector.replicate 128 0 := by
  obtain ⟨x, hx⟩ := hrun
  exact ⟨_, _, _, hx, hhash, exec_encodeDigest_closeContext hc h t p x,
    ⟨rfl, rfl, rfl, rfl, rfl, rfl, rfl, rfl, rfl⟩, ⟨rfl, rfl, rfl, rfl, rfl, rfl, rfl, rfl, rfl⟩, rfl, rfl,
    fill_nil 8 128⟩

/-- MSG[0..MLEN) is `m` when its bytes are those of `m`. -/
theorem message_eq {s : State} {m : List Byte} (hlen : s.mlen.toNat = m.length)
    (hbytes : ∀ x, x < m.length → msgByte s x = m.getD x 0) : message s = m := by
  rw [message_eq_map, hlen]
  apply List.ext_getElem (by simp)
  intro x _ hx
  simp [hbytes x hx, List.getElem?_eq_getElem hx]

/-! ### The MD family (R367) -/

/-- COMPRESS_MD on the state words and the counter (R365). -/
def mdUpdate (e : MdEngine) (ht : RegFile × Word128) (block : List Byte) : RegFile × Word128 :=
  (e.compress ht.1 block, ht.2 + BitVec.ofNat 128 (blockSize e.alg))

theorem updateBlocks_mdUpdate (e : MdEngine) (k : Nat) (h : RegFile) (t : Word128) (m : List Byte) :
    updateBlocks (mdUpdate e) (blockSize e.alg) k (h, t) m =
      (absorb e.compress (blockSize e.alg) k h m, t + BitVec.ofNat 128 (k * blockSize e.alg)) := by
  induction k generalizing h t m with
  | zero => simp [updateBlocks, absorb]
  | succ k ih =>
    rw [updateBlocks, mdUpdate, ih, BitVec.add_assoc, ← BitVec.ofNat_add, absorb, Nat.succ_mul, Nat.add_comm]

/-- All full blocks of `m`, from the initial state. -/
theorem updateBlocks_mdUpdate_iv (e : MdEngine) (m : List Byte) :
    updateBlocks (mdUpdate e) (blockSize e.alg) (m.length / blockSize e.alg) (e.iv, 0) m =
      (absorbAll e e.iv m, BitVec.ofNat 128 (m.length / blockSize e.alg * blockSize e.alg)) :=
  (updateBlocks_mdUpdate e _ _ _ m).trans (congrArg _ (BitVec.zero_add _))

theorem compressIs_mdUpdate {e : MdEngine} (he : e ∈ mdEngines) : CompressIs ⟨e.alg, 0, 0⟩ (mdUpdate e) := by
  intro ht block s hs hblock
  have hactive : activeFor (loadBlk block s) e.alg = true := hs.activeFor
  rw [exec_compressOf _ e he, compressMd_active hactive, blockOperand_loadBlk s hblock, loadBlk_h, hs.h, advanced,
    loadBlk_t, hs.t]
  exact ⟨_, rfl, hs.phase, hs.ctx, rfl, rfl⟩

/-- FINAL_MD on the tail of a message of `total` bytes, after its full blocks (R366). -/
theorem closes_finalMd {e : MdEngine} (he : e ∈ mdEngines) (h : RegFile) {tail : List Byte} {done total : Nat}
    (hn : tail.length < blockSize e.alg) (htotal : done + tail.length = total) (hfits : total < 2 ^ 128) :
    Closes tail (finalOf e.alg tail.length) ⟨e.alg, 0, 0⟩ (h, BitVec.ofNat 128 done)
      (absorbAll e h (mdPad e.alg tail total)) (BitVec.ofNat 128 total) (mdPad e.alg tail total) := by
  intro s hs
  have hcount : advanced (loadBlk tail s) tail.length = BitVec.ofNat 128 total := by
    rw [advanced, loadBlk_t, hs.t, ← BitVec.ofNat_add, htotal]
  have hactive : activeFor (loadBlk tail s) e.alg = true := hs.activeFor
  rw [exec_finalOf _ _ e he, finalMd_active he hactive, if_neg (Nat.not_le.2 hn),
    tailOperand_loadBlk s (hn.le.trans (blockSize_le e.alg)), hcount, BitVec.toNat_ofNat, Nat.mod_eq_of_lt hfits,
    loadBlk_ctx, loadBlk_h, hs.ctx, hs.h]

/-- Settles O46: after the full blocks the program has reached what HASH has (`updateBlocks_mdUpdate_iv`), and FINAL
pads the tail with the message's length, which T has counted. -/
theorem mdBlockProgramEqualsHash : Obligations.MdBlockProgramEqualsHash := by
  intro a ha s s' m hlen hbytes hcap
  obtain ⟨e, he, rfl⟩ := mdFamily_engine ha
  obtain ⟨hmod, htail⟩ := messageTail_length ha m
  have htotal : m.length / blockSize e.alg * blockSize e.alg + (messageTail e.alg m).length = m.length := by
    rw [hmod, Nat.div_add_mod']
  have hlast := closes_finalMd he (absorbAll e e.iv m) htail htotal (by omega)
  rw [← updateBlocks_mdUpdate_iv, ← absorbAll_padMessage e he] at hlast
  refine results_of_closes_of_hashed (ctxLegal_md he) (runProgram_closes (compressIs_mdUpdate he) (exec_initOf _ e he)
    (Nat.div_mul_le_self _ _) hlast) ?hash
  case hash =>
    rw [exec_hashOf s e he, hashMd_fits he (messageTooLong_of_le hcap), message_eq hlen hbytes, ← BitVec.ofNat_toNat,
      hlen]

/-! ### BLAKE2b (R368) -/

theorem updateBlocks_blakeUpdate (k : Nat) (ht : RegFile × Word128) (m : List Byte) :
    updateBlocks blakeUpdate 128 k ht m = blakeAbsorb k ht m := by
  induction k generalizing ht m with
  | zero => rfl
  | succ k ih => exact ih _ _

theorem compressIs_blakeUpdate (d k : Byte) : CompressIs ⟨.blake2b, d, k⟩ blakeUpdate := by
  intro ht block s hs hblock
  have hstep := compressBlake_active (s := loadBlk block s) hs.activeFor
  rw [← blockOperand_blake, blockOperand_loadBlk s hblock, loadBlk_h, hs.h, loadBlk_t, hs.t] at hstep
  exact ⟨_, hstep, hs.phase, hs.ctx, rfl, rfl⟩

/-- FINAL.BLAKE2B on the last block; the guard of R304 asks for an empty block to be the whole input. -/
theorem closes_finalBlake {d k : Byte} {ht : RegFile × Word128} {tail : List Byte} (hn : tail.length ≤ 128)
    (hempty : tail = [] → ht.2 = 0 ∧ k = 0) :
    Closes tail (.finalBlake2b tail.length) ⟨.blake2b, d, k⟩ ht (blakeFinish ht tail).1 (blakeFinish ht tail).2
      (blakePad tail) := by
  intro s hs
  have passed : ¬(128 < tail.length ∨ (tail.length = 0 ∧ (ht.2 ≠ 0 ∨ k ≠ 0))) := by
    rintro (h | ⟨hz, h⟩)
    · exact Nat.not_lt.2 hn h
    · obtain ⟨ht0, hk0⟩ := hempty (List.eq_nil_of_length_eq_zero hz)
      exact h.elim (absurd ht0) (absurd hk0)
  have hlast := finalBlake_active (s := loadBlk tail s) hs.activeFor tail.length
  rw [tailOperand_loadBlk s hn, loadBlk_h, loadBlk_t, loadBlk_ctx, hs.h, hs.t, hs.ctx, if_neg passed] at hlast
  exact hlast

/-- Only empty data has an empty last block (R372). -/
theorem eq_nil_of_blakeTail {data : List Byte} (h : data.drop (128 * blakeLeading data) = []) : data = [] := by
  rw [List.drop_eq_nil_iff, blakeLeading] at h
  exact List.eq_nil_of_length_eq_zero (by omega)

/-- So nothing is counted before an empty last block. -/
theorem blakeAbsorb_counter_of_blakeTail {data : List Byte} (iv : RegFile)
    (h : data.drop (128 * blakeLeading data) = []) : (blakeAbsorb (blakeLeading data) (iv, 0) data).2 = 0 := by
  rw [eq_nil_of_blakeTail h]
  rfl

/-- With a key there is a key block (R298). -/
theorem klen_eq_zero_of_blakeData {s : State} (h : blakeData s = []) : s.cfg.klen = 0 := by
  by_contra hk
  rw [blakeData, if_neg hk, List.append_eq_nil_iff, List.append_eq_nil_iff] at h
  obtain ⟨⟨hkey, -⟩, -⟩ := h
  have hlen := congrArg List.length hkey
  rw [prefixOf_length, List.length_nil] at hlen
  exact hk (BitVec.eq_of_toNat_eq (by simp; omega))

/-- The key of R368 is KEY[0..CFG.KLEN), empty when CFG.KLEN is 0. -/
theorem blakeData_of_key {s : State} (hk : s.cfg.klen.toNat ≤ 64) :
    let key := s.key.toList.take s.cfg.klen.toNat
    blakeData s = (if key = [] then [] else key ++ List.replicate (128 - key.length) 0) ++ message s := by
  intro key
  have hlen : key.length = s.cfg.klen.toNat := (prefixOf_length s.key _).trans (Nat.min_eq_left hk)
  have hnil : key = [] ↔ s.cfg.klen.toNat = 0 := by rw [← List.length_eq_zero_iff, hlen]
  rw [blakeData_eq, hlen]
  simp only [hnil, key]

/-- Settles O47: before the last block the program has reached what HASH has (`updateBlocks_blakeUpdate`). FINAL's
guard passes: an empty last block is the whole input, with nothing counted and no key. -/
theorem blakeBlockProgramEqualsHash : Obligations.BlakeBlockProgramEqualsHash := by
  intro s s' m key hcfg hd1 hd64 hk hkey hlen hbytes hcap data
  subst hkey
  have hdata : blakeData s = data := by rw [blakeData_of_key hk, message_eq hlen hbytes]
  have hf := configFault_legal hd1 hd64 hk
  have hinit := initBlake_legal (s := loadBlk [] s') (by rwa [configFault, loadBlk_cfg, hcfg])
  rw [loadBlk_cfg, hcfg] at hinit
  have hguard (h : data.drop (128 * blakeLeading data) = []) :=
    And.intro (blakeAbsorb_counter_of_blakeTail (blakeInit s.cfg.dlen s.cfg.klen) h)
      (klen_eq_zero_of_blakeData (hdata.trans (eq_nil_of_blakeTail h)))
  have hlast := closes_finalBlake (d := s.cfg.dlen) (blakeTail_length data) hguard
  rw [← updateBlocks_blakeUpdate, List.length_drop] at hlast
  have hbound : blakeLeading data * blockSize .blake2b ≤ data.length := Nat.mul_comm .. ▸ blakeLeading_le data
  refine results_of_closes_of_hashed (ctxLegal_blake hf)
    (runProgram_closes (compressIs_blakeUpdate _ _) hinit hbound hlast) ?hash
  case hash =>
    refine (hashBlake_fits hf (messageTooLong_of_le hcap)).trans ?_
    rw [hdata, blakeHash, ← updateBlocks_blakeUpdate]

end Sys2Proof.Machine
end

section
/-! PROOF. The result codes of commands (R401, R402) and what a command that fails leaves (R403, R405). -/

namespace Sys2Proof.Machine

/-! ### The first check that fails, operation by operation -/

/-- CFG is read by INIT and HASH of BLAKE2b (R29). -/
theorem readsCfg_eq (i : Instr) :
    readsCfg i = ((i.fields.1 == .init || i.fields.1 == .hash) && i.fields.2.1 == .blake2b) := by
  cases i <;> rfl

/-- Of a command that does not read CFG, three checks of R402 are left. -/
theorem expectedCode_of_not_readsCfg {i : Instr} {s : State} (h : readsCfg i = false) :
    expectedCode i s =
      if seqFails i s then .errSeq
      else if lenFails i s then .errLen
      else if mlenFails i s then .errMlen
      else .ok := by
  simp [expectedCode, dlenFails, klenFails, h]

/-- Of a command that reads CFG, the configuration checks come first, then that of MLEN. -/
theorem expectedCode_of_readsCfg {i : Instr} (s : State) (h : readsCfg i = true) :
    expectedCode i s = (configFault s).getD (if mlenFails i s then .errMlen else .ok) := by
  obtain ⟨hseq, hlen⟩ : seqFails i s = false ∧ lenFails i s = false := by
    obtain rfl | rfl : i = .initBlake2b ∨ i = .hashBlake2b := by simpa [readsCfg] using h
    · exact ⟨rfl, rfl⟩
    · exact ⟨rfl, rfl⟩
  rw [expectedCode, hseq, hlen, dlenFails, klenFails, h]
  obtain ⟨hf, hd⟩ | ⟨hf, hd, hk⟩ | ⟨hf, hd, hk⟩ := configFault_cases s
  · simp [hf, hd]
  · have hlegal : ¬(s.cfg.dlen.toNat = 0 ∨ 65 ≤ s.cfg.dlen.toNat) := by omega
    simp [hf, hlegal, hk]
  · have hlegal : ¬(s.cfg.dlen.toNat = 0 ∨ 65 ≤ s.cfg.dlen.toNat) := by omega
    have hkey : s.cfg.klen.toNat < 65 := by omega
    simp [hf, hlegal, hkey]

theorem expectedCode_initOf_md (s : State) {e : MdEngine} (he : e ∈ mdEngines) :
    expectedCode (initOf e.alg) s = .ok := by
  rw [expectedCode_of_not_readsCfg (by simp [readsCfg_eq, mdEngine_not_blake e he])]
  simp [seqFails, lenFails, mlenFails]

theorem expectedCode_initBlake (s : State) : expectedCode .initBlake2b s = (configFault s).getD .ok :=
  expectedCode_of_readsCfg s rfl

theorem expectedCode_compressOf (s : State) (a : Alg) :
    expectedCode (compressOf a) s = if activeFor s a = false then .errSeq else .ok := by
  rw [expectedCode_of_not_readsCfg (by simp [readsCfg_eq]), seqFails_compressOf]
  simp [lenFails, mlenFails]

/-- PAD and FINAL have the same checks, in the same order. -/
theorem expectedCode_padOf_or_finalOf {i : Instr} (s : State) {a : Alg} {n : Nat}
    (hi : i = padOf a n ∨ i = finalOf a n) :
    expectedCode i s =
      if activeFor s a = false then .errSeq else if lenFails i s then .errLen else .ok := by
  obtain rfl | rfl := hi
  · rw [expectedCode_of_not_readsCfg (by simp [readsCfg_eq]), seqFails_padOf]
    simp [mlenFails]
  · rw [expectedCode_of_not_readsCfg (by simp [readsCfg_eq]), seqFails_finalOf]
    simp [mlenFails]

theorem expectedCode_padOf_or_finalOf_ok {i : Instr} {s : State} {a : Alg} {n : Nat}
    (hi : i = padOf a n ∨ i = finalOf a n) (ha : activeFor s a = true) (hl : lenFails i s = false) :
    expectedCode i s = .ok := by
  simp [expectedCode_padOf_or_finalOf s hi, ha, hl]

theorem expectedCode_serializeOf (s : State) (a : Alg) :
    expectedCode (serializeOf a) s = if openFor s a = false then .errSeq else .ok := by
  rw [expectedCode_of_not_readsCfg (by simp [readsCfg_eq]), seqFails_serializeOf]
  simp [lenFails, mlenFails]

theorem expectedCode_encodeDigest (s : State) :
    expectedCode .encodeDigest s = if s.diglen = 0 then .errSeq else .ok := by
  rw [expectedCode_of_not_readsCfg rfl]
  simp [seqFails, lenFails, mlenFails]

theorem mlenFails_hashOf (s : State) (a : Alg) : mlenFails (hashOf a) s = messageTooLong s := by
  simp [mlenFails, messageTooLong, BitVec.lt_def]

theorem expectedCode_hashOf_md (s : State) {e : MdEngine} (he : e ∈ mdEngines) :
    expectedCode (hashOf e.alg) s = if messageTooLong s then .errMlen else .ok := by
  rw [expectedCode_of_not_readsCfg (by simp [readsCfg_eq, mdEngine_not_blake e he]), mlenFails_hashOf]
  simp [seqFails, lenFails]

theorem expectedCode_hashBlake (s : State) :
    expectedCode .hashBlake2b s = (configFault s).getD (if messageTooLong s then .errMlen else .ok) := by
  rw [expectedCode_of_readsCfg s rfl, ← mlenFails_hashOf s .blake2b]
  rfl

/-- The code of a command is that of its first check that fails (R402). -/
theorem exec_code {i : Instr} {s t : State} (h : exec i s = .next t) : t.code = expectedCode i s := by
  cases exec_effect h with
  | nop hi => subst hi; rfl
  | sreset hi _ ht => subst hi; cases ht; rfl
  | errSeq hf => simp [expectedCode, hf]
  | errLen a n hi ha hl => simp [expectedCode_padOf_or_finalOf s hi, ha, hl]
  | errMlen a hi hm hc =>
    subst hi
    obtain rfl | ⟨e, he, rfl⟩ := alg_engine a
    · simp [hashOf, expectedCode_hashBlake, hc rfl, hm]
    · simp [expectedCode_hashOf_md s he, hm]
  | errConfig hi c hc =>
    obtain rfl | rfl := hi
    · simp [expectedCode_initBlake, hc]
    · simp [expectedCode_hashBlake, hc]
  | encode hi hd => subst hi; rw [expectedCode_encodeDigest, if_neg hd]
  | init e he hi => subst hi; exact (expectedCode_initOf_md s he).symm
  | initBlake hi hc => subst hi; simp [expectedCode_initBlake, hc]
  | compress e _ hi ha => subst hi; simp [expectedCode_compressOf, ha]
  | compressBlake hi ha => subst hi; exact ((expectedCode_compressOf s .blake2b).trans (by simp [ha])).symm
  | pad a n hm hi ha hn =>
    have hl : lenFails i s = false := by simp [hi, (lenFails_md s hm n).1, hn]
    exact (expectedCode_padOf_or_finalOf_ok (.inl hi) ha hl).symm
  | padBlake n hi ha hn =>
    have hl : lenFails i s = false := hi ▸ decide_eq_false (by omega)
    exact (expectedCode_padOf_or_finalOf_ok (a := .blake2b) (.inl hi) ha hl).symm
  | final e n he hi ha hn =>
    have hl : lenFails i s = false := by simp [hi, (lenFails_md s (mdFamily_alg e he) n).2, hn]
    exact (expectedCode_padOf_or_finalOf_ok (.inr hi) ha hl).symm
  | finalBlake n hi ha hn hg =>
    have hl : lenFails i s = false := hi ▸ Bool.or_eq_false_iff.2 ⟨decide_eq_false (by omega), hg⟩
    exact (expectedCode_padOf_or_finalOf_ok (a := .blake2b) (.inr hi) ha hl).symm
  | serialize a hi ho => subst hi; simp [expectedCode_serializeOf, ho]
  | hash e he hi hm => subst hi; simp [expectedCode_hashOf_md s he, hm]
  | hashBlake hi hc hm => subst hi; simp [expectedCode_hashBlake, hc, hm]

/-- Settles O9: `exec_code` for a command, and the two completions of the engine's turn. -/
theorem firstFailingCheckDecides : Obligations.FirstFailingCheckDecides := by
  refine ⟨fun i s => ?command, fun s hb => ?turn⟩
  case command =>
    obtain ⟨t, ht⟩ := exec_next i s
    exact ⟨t, ht, exec_code ht⟩
  case turn =>
    cases hd : decode s.pend with
    | error r => exact ⟨_, engineTurn_illegal hb hd, fun _ => rfl, nofun⟩
    | ok i =>
      obtain ⟨t, ht, hturn⟩ := engineTurn_decoded hb hd
      refine ⟨_, hturn, nofun, fun j hj => ?_⟩
      cases hj
      exact (complete_code t).trans (exec_code ht)

/-! ### What an error leaves (R403, R405) -/

/-- Only an error ends with a code other than OK: a configuration error, or one that writes CODE alone. -/
theorem exec_error_cases {i : Instr} {s t : State} (h : exec i s = .next t) (hne : t.code ≠ .ok) :
    (∃ c, (c = .errDlen ∨ c = .errKlen) ∧ t = configError c s) ∨
    ∃ c, ¬(c = .errDlen ∨ c = .errKlen) ∧ t = raise c s := by
  cases exec_effect h with
  | errConfig _ c hc => exact .inl ⟨c, configFault_code hc, rfl⟩
  | errSeq | errLen | errMlen => exact .inr ⟨_, by decide, rfl⟩
  | sreset _ _ ht => cases ht; exact absurd rfl hne
  | _ => exact absurd rfl hne

/-- The engine's turn ends the command it runs (R360). -/
theorem engineTurn_busy {s t : State} (hb : s.busy = true) (h : engineTurn s = .next t) : t.busy = false := by
  obtain ⟨_, h⟩ | ⟨hidle, _⟩ := engineTurn_cases h
  · obtain ⟨_, _, rfl⟩ | ⟨_, _, _, _, rfl⟩ := engineStep_cases h
    · rfl
    · rfl
  · simp [hb] at hidle

/-- Settles O10: the two kinds of errors are the two branches of the statement. -/
theorem errorsAreAtomic : Obligations.ErrorsAreAtomic := by
  refine ⟨fun i s t h hne => ?_, fun _ _ hb => engineTurn_busy hb⟩
  obtain ⟨c, hc, rfl⟩ | ⟨c, hc, rfl⟩ := exec_error_cases h hne
  · exact (configError_eq c s).trans (if_pos hc).symm
  · exact (if_neg hc).symm

end Sys2Proof.Machine
end

section
/-! PROOF. Resets (R440, R441) and the completion of a pending command (R458): what one step does with a power-on event
and with a poll of STATUS, and a run of polls up to the engine's turn. -/

namespace Sys2Proof.Machine

/-! ### Power-on reset and SRESET (R440, R441) -/

theorem step_powerOn {s : State} {rest : List Event} (h : s.schedule = .powerOn :: rest) :
    step s = .next (powerOnReset { s with schedule := rest }) := by
  rw [step, transition, h]
  rfl

/-- Settles O58: the step is `powerOnReset`, which takes every register and buffer from the reset state. -/
theorem powerOnResetsEverything : Obligations.PowerOnResetsEverything := fun _ _ hs => step_powerOn hs

/-- A completed SRESET is a power-on reset that keeps message memory: both draw one free PEND (R362, R441). -/
theorem complete_execSreset {s t : State} (h : exec .sreset s = .next t) :
    complete t = { powerOnReset s with msg := s.msg, powerOns := s.powerOns } := by
  cases h
  rfl

/-- Settles O59: the engine's turn completes SRESET, and `complete_execSreset` compares it with the power-on step. -/
theorem sresetDiffersInMessageAlone : Obligations.SresetDiffersInMessageAlone := by
  intro s rest hb hd hs
  obtain ⟨t, ht, hturn⟩ := engineTurn_decoded (s := { s with schedule := rest }) hb hd
  have env := exec_sameEnvironment ht
  exact ⟨complete t, _, (step_engine hs).trans hturn, step_powerOn rfl, complete_execSreset ht,
    msgByte_congr env.msg env.powerOns⟩

/-! ### A pending command completes (R451, R458) -/

/-- A poll of STATUS is a step in every state: it records the STATUS word and leaves the schedule's rest (R452). -/
theorem step_statusPoll {s : State} {rest : List Event} (h : s.schedule = .access (.read 32 0x004) :: rest) :
    step s = .next (returned (statusWord s) { s with schedule := rest }) := by
  rw [step, transition, h]
  exact hostAccess_allowed (.inr rfl)

/-- A command completes with the schedule and the host's record as they were (R44). -/
theorem engineTurn_keeps_schedule_seen {s t : State} (h : engineTurn s = .next t) :
    t.schedule = s.schedule ∧ t.seen = s.seen := by
  obtain ⟨_, h⟩ | ⟨_, rfl⟩ := engineTurn_cases h
  · obtain ⟨_, _, rfl⟩ | ⟨_, _, _, hexec, rfl⟩ := engineStep_cases h
    · exact ⟨rfl, rfl⟩
    · have env := exec_sameEnvironment hexec
      exact ⟨env.schedule, env.seen⟩
  · exact ⟨rfl, rfl⟩

/-- A run whose first step answers `t` goes on from `t`. -/
theorem run_succ_of_step {M : Host.Core} {s t : M.State} (h : M.step s = .next t) (k : Nat) :
    M.run (k + 1) s = M.run k t := by
  rw [Host.Core.run, h]

/-- Settles O11, by induction on the number of polls: none leaves the engine's turn, and each one reads the STATUS that
the polls after it read too. -/
theorem pendingCommandCompletes : Obligations.PendingCommandCompletes := by
  intro k
  induction k with
  | zero =>
    intro s rest hb hs
    obtain ⟨t, ht⟩ := engineTurn_next { s with schedule := rest }
    obtain ⟨hschedule, hseen⟩ := engineTurn_keeps_schedule_seen ht
    have hbusy := engineTurn_busy (s := { s with schedule := rest }) hb ht
    exact ⟨t, run_succ_of_step (M := Sys2Proof.core) ((step_engine hs).trans ht) 0, hbusy, hschedule, hseen⟩
  | succ k ih =>
    intro s rest hb hs
    have hpoll := step_statusPoll hs
    obtain ⟨t, hrun, hbusy, hschedule, hseen⟩ := ih (returned (statusWord s) { s with schedule := _ }) rest hb rfl
    refine ⟨t, (run_succ_of_step (M := Sys2Proof.core) hpoll (k + 1)).trans hrun, hbusy, hschedule, ?_⟩
    calc t.seen = List.replicate k (statusWord s) ++ statusWord s :: s.seen := hseen
      _ = List.replicate (k + 1) (statusWord s) ++ s.seen := by rw [List.replicate_succ', List.append_cons]

end Sys2Proof.Machine
end
